-- ==== Sys2Proof/Word.lean ====
section
/-! DEFINITION. The widths the block works with (00_scope.md R11, 30_encoding.md R110). -/

namespace Sys2Proof

/-- One byte of the host data bus (R11). -/
abbrev Byte := BitVec 8

/-- A host register address, `bus_addr[3:0]` (R11, R86). -/
abbrev RegAddr := BitVec 4

/-- A transaction word: W at bit 12, A at bits 11:8, D at bits 7:0 (R110). -/
abbrev TxWord := BitVec 13

end Sys2Proof
end

