-- ==== Sys2Proof/Syntax.lean ====
section
/-! DEFINITION. The host transactions, one constructor per row of spec/opcode_table.json
(30_encoding.md R113). A write carries its data byte D, also where the register ignores it (R114); a read carries
nothing, because every D selects the same read (R111). -/

namespace Sys2Proof

/-- The 32 host transactions (R3, R113). -/
inductive Instr where
  | rdClkpr
  | wrClkpr (d : Byte)
  | rdOcra
  | wrOcra (d : Byte)
  | rdTcfgA
  | wrTcfgA (d : Byte)
  | rdTcfgB
  | wrTcfgB (d : Byte)
  | rdTcfgImsk
  | wrTcfgImsk (d : Byte)
  | rdTick
  | wrTick (d : Byte)
  | rdStatus
  | wrStatus (d : Byte)
  | rdRowScan
  | wrRowScan (d : Byte)
  | rdColData
  | wrColData (d : Byte)
  | rdTxData
  | wrTxData (d : Byte)
  | rdLed
  | wrLed (d : Byte)
  | rdPulse
  | wrPulse (d : Byte)
  | rdPincfg
  | wrPincfg (d : Byte)
  | rdRsvdD
  | wrRsvdD (d : Byte)
  | rdRsvdE
  | wrRsvdE (d : Byte)
  | rdRsvdF
  | wrRsvdF (d : Byte)
deriving DecidableEq, Repr

end Sys2Proof
end

