-- ==== Sys2Proof/Decode.lean ====
section
/-! DEFINITION. The decoder and the encoder of transaction words (30_encoding.md R110 to R113). -/

namespace Sys2Proof

/-- Why a number is not read as a transaction. -/
inductive DecodeReject where
  /-- Bits above bit 12 are set: the bus has 13 wires (R110, R119). -/
  | beyondThirteenBits
  /-- No row selects the word. R112 says that no 13-bit word ends here. -/
  | noRow
deriving DecidableEq, Repr

/-- A row of the opcode map (R113): word `w` selects the row with `(w & mask) == pattern`; `make` gives the transaction
from D. -/
structure OpcodeRow where
  mnemonic : String
  pattern : TxWord
  mask : TxWord
  make : Byte → Instr

/-- Does the word select the row (R113)? -/
def OpcodeRow.selects (r : OpcodeRow) (w : TxWord) : Bool :=
  (w &&& r.mask) == r.pattern

/-- The read rows of R113. -/
def readRows : List OpcodeRow :=
  [ ⟨"RD_CLKPR", 0x0000, 0x1F00, fun _ => .rdClkpr⟩,
    ⟨"RD_OCRA", 0x0100, 0x1F00, fun _ => .rdOcra⟩,
    ⟨"RD_TCFG_A", 0x0200, 0x1F00, fun _ => .rdTcfgA⟩,
    ⟨"RD_TCFG_B", 0x0300, 0x1F00, fun _ => .rdTcfgB⟩,
    ⟨"RD_TCFG_IMSK", 0x0400, 0x1F00, fun _ => .rdTcfgImsk⟩,
    ⟨"RD_TICK", 0x0500, 0x1F00, fun _ => .rdTick⟩,
    ⟨"RD_STATUS", 0x0600, 0x1F00, fun _ => .rdStatus⟩,
    ⟨"RD_ROW_SCAN", 0x0700, 0x1F00, fun _ => .rdRowScan⟩,
    ⟨"RD_COL_DATA", 0x0800, 0x1F00, fun _ => .rdColData⟩,
    ⟨"RD_TX_DATA", 0x0900, 0x1F00, fun _ => .rdTxData⟩,
    ⟨"RD_LED", 0x0A00, 0x1F00, fun _ => .rdLed⟩,
    ⟨"RD_PULSE", 0x0B00, 0x1F00, fun _ => .rdPulse⟩,
    ⟨"RD_PINCFG", 0x0C00, 0x1F00, fun _ => .rdPincfg⟩,
    ⟨"RD_RSVD_D", 0x0D00, 0x1F00, fun _ => .rdRsvdD⟩,
    ⟨"RD_RSVD_E", 0x0E00, 0x1F00, fun _ => .rdRsvdE⟩,
    ⟨"RD_RSVD_F", 0x0F00, 0x1F00, fun _ => .rdRsvdF⟩ ]

/-- The write rows of R113. -/
def writeRows : List OpcodeRow :=
  [ ⟨"WR_CLKPR", 0x1000, 0x1F00, .wrClkpr⟩,
    ⟨"WR_OCRA", 0x1100, 0x1F00, .wrOcra⟩,
    ⟨"WR_TCFG_A", 0x1200, 0x1F00, .wrTcfgA⟩,
    ⟨"WR_TCFG_B", 0x1300, 0x1F00, .wrTcfgB⟩,
    ⟨"WR_TCFG_IMSK", 0x1400, 0x1F00, .wrTcfgImsk⟩,
    ⟨"WR_TICK", 0x1500, 0x1F00, .wrTick⟩,
    ⟨"WR_STATUS", 0x1600, 0x1F00, .wrStatus⟩,
    ⟨"WR_ROW_SCAN", 0x1700, 0x1F00, .wrRowScan⟩,
    ⟨"WR_COL_DATA", 0x1800, 0x1F00, .wrColData⟩,
    ⟨"WR_TX_DATA", 0x1900, 0x1F00, .wrTxData⟩,
    ⟨"WR_LED", 0x1A00, 0x1F00, .wrLed⟩,
    ⟨"WR_PULSE", 0x1B00, 0x1F00, .wrPulse⟩,
    ⟨"WR_PINCFG", 0x1C00, 0x1F00, .wrPincfg⟩,
    ⟨"WR_RSVD_D", 0x1D00, 0x1F00, .wrRsvdD⟩,
    ⟨"WR_RSVD_E", 0x1E00, 0x1F00, .wrRsvdE⟩,
    ⟨"WR_RSVD_F", 0x1F00, 0x1F00, .wrRsvdF⟩ ]

/-- The complete opcode map (R113). -/
def opcodeRows : List OpcodeRow := readRows ++ writeRows

/-- The D field of a word (R110). -/
def wordData (w : TxWord) : Byte := w.extractLsb' 0 8

/-- Decoding: the row the word selects, with D as its operand (R112, R113). -/
def decode (w : TxWord) : Except DecodeReject Instr :=
  match opcodeRows.find? (fun r => r.selects w) with
  | some r => .ok (r.make (wordData w))
  | none => .error .noRow

/-- Decoding of a number: the word it is, if it has no bit above bit 12. -/
def decodeNat (n : Nat) : Except DecodeReject Instr :=
  if n < 8192 then decode (BitVec.ofNat 13 n) else .error .beyondThirteenBits

/-- W of a transaction's word: 1 for a write (R110, R113). -/
def Instr.isWrite : Instr → Bool
  | .rdClkpr | .rdOcra | .rdTcfgA | .rdTcfgB | .rdTcfgImsk | .rdTick | .rdStatus | .rdRowScan => false
  | .rdColData | .rdTxData | .rdLed | .rdPulse | .rdPincfg | .rdRsvdD | .rdRsvdE | .rdRsvdF => false
  | .wrClkpr _ | .wrOcra _ | .wrTcfgA _ | .wrTcfgB _ | .wrTcfgImsk _ | .wrTick _ | .wrStatus _ | .wrRowScan _ => true
  | .wrColData _ | .wrTxData _ | .wrLed _ | .wrPulse _ | .wrPincfg _ | .wrRsvdD _ | .wrRsvdE _ | .wrRsvdF _ => true

/-- A of a transaction's word (R110, R113). -/
def Instr.addr : Instr → RegAddr
  | .rdClkpr | .wrClkpr _ => 0x0
  | .rdOcra | .wrOcra _ => 0x1
  | .rdTcfgA | .wrTcfgA _ => 0x2
  | .rdTcfgB | .wrTcfgB _ => 0x3
  | .rdTcfgImsk | .wrTcfgImsk _ => 0x4
  | .rdTick | .wrTick _ => 0x5
  | .rdStatus | .wrStatus _ => 0x6
  | .rdRowScan | .wrRowScan _ => 0x7
  | .rdColData | .wrColData _ => 0x8
  | .rdTxData | .wrTxData _ => 0x9
  | .rdLed | .wrLed _ => 0xA
  | .rdPulse | .wrPulse _ => 0xB
  | .rdPincfg | .wrPincfg _ => 0xC
  | .rdRsvdD | .wrRsvdD _ => 0xD
  | .rdRsvdE | .wrRsvdE _ => 0xE
  | .rdRsvdF | .wrRsvdF _ => 0xF

/-- D of a transaction's canonical word: 0 for a read (R111). -/
def Instr.data : Instr → Byte
  | .wrClkpr d | .wrOcra d | .wrTcfgA d | .wrTcfgB d | .wrTcfgImsk d | .wrTick d | .wrStatus d | .wrRowScan d => d
  | .wrColData d | .wrTxData d | .wrLed d | .wrPulse d | .wrPincfg d | .wrRsvdD d | .wrRsvdE d | .wrRsvdF d => d
  | .rdClkpr | .rdOcra | .rdTcfgA | .rdTcfgB | .rdTcfgImsk | .rdTick | .rdStatus | .rdRowScan => 0
  | .rdColData | .rdTxData | .rdLed | .rdPulse | .rdPincfg | .rdRsvdD | .rdRsvdE | .rdRsvdF => 0

/-- A word from its three fields W, A and D (R110). -/
def wordOf (w : Bool) (a : RegAddr) (d : Byte) : TxWord :=
  BitVec.ofBool w ++ a ++ d

/-- The canonical word of a transaction (R110, R111). -/
def encode (i : Instr) : TxWord := wordOf i.isWrite i.addr i.data

/-- The transaction the decoder reads from a table row's bits: `nbits` bits of `w`, every bit above them 0. -/
def decodeTableWord (nbits w : Nat) : Option Instr :=
  match decodeNat (w % 2 ^ nbits) with
  | .ok i => some i
  | .error _ => none

end Sys2Proof
end

