-- ==== Sys2Proof/Config.lean ====
section
/-! DEFINITION. What is fixed for one built block (00_scope.md R9 to R12), the inputs of a step (R57, R81), and the
free inputs of a run (R16, R80). -/

namespace Sys2Proof

namespace Config

/-- Width of the timer counter (R10). -/
def tcntW : Nat := 8

/-- The tick rate in Hz (R10). -/
def tickRateHz : Nat := 1000

/-- The minimum strobe width in microseconds (R10). -/
def strobeLengthUs : Nat := 10

/-- Synchronizer depth before the edge detector (R10). -/
def nSync : Nat := 2

end Config

/-- The build-time parameters with more than one legal value (R10). DESIGN CHOICE (log entry 19, safe): R10 lets `F_SRC`
and `F_HCLK` be any positive frequency, and the model takes whole numbers of Hz. -/
structure Params where
  fSrc : Nat
  clkpsReset : Nat
  fHclk : Nat
  numRows : Nat
  numCols : Nat
  settleCycles : Nat
  strobeCycles : Nat
  pulseCycles : Nat
  colActiveLow : Bool
  strobeActiveHigh : Bool
  ledActiveHigh : Bool
  clrActiveHigh : Bool
  rstActiveHigh : Bool
deriving DecidableEq, Repr

/-- A legal parameter set: the legal values of R10 and the constraints of R12. The bound
`STROBE_CYCLES >= ceil(STROBE_LENGTH_US * F_HCLK / 1e6)` is written without the division. -/
abbrev Params.Legal (p : Params) : Prop :=
  0 < p.fSrc ∧ p.clkpsReset ≤ 8 ∧ 0 < p.fHclk ∧
  (1 ≤ p.numRows ∧ p.numRows ≤ 16) ∧ (1 ≤ p.numCols ∧ p.numCols ≤ 8) ∧
  (2 ≤ p.settleCycles ∧ p.settleCycles ≤ 255) ∧
  (1 ≤ p.strobeCycles ∧ p.strobeCycles ≤ 65535) ∧
  Config.strobeLengthUs * p.fHclk ≤ p.strobeCycles * 1000000 ∧
  (p.strobeCycles ≤ p.pulseCycles ∧ p.pulseCycles ≤ 65535)

/-- The reference configuration REF8 (R10). -/
def Params.ref8 : Params where
  fSrc := 8000000
  clkpsReset := 0
  fHclk := 8000000
  numRows := 3
  numCols := 8
  settleCycles := 4
  strobeCycles := 80
  pulseCycles := 80
  colActiveLow := true
  strobeActiveHigh := true
  ledActiveHigh := true
  clrActiveHigh := true
  rstActiveHigh := true

/-- What a step is (R80): a rising edge of `hclk`, a rising edge of `tclk`, or a reset through `rst_n`. -/
inductive Edge where
  | hclk
  | tclk
  | reset
deriving DecidableEq, Repr, Inhabited

/-- The bus inputs sampled at an hclk edge (R57, R83). -/
structure BusPins where
  addr : RegAddr
  wdata : Byte
  wr : Bool
  rd : Bool
deriving DecidableEq, Repr, Inhabited

/-- No transaction: `bus_wr = 0` and `bus_rd = 0` (R83). -/
def BusPins.idle : BusPins where
  addr := 0
  wdata := 0
  wr := false
  rd := false

/-- The inputs of one step (R81): which edge it is, the bus, the column pins of that edge (R248), and the draws of the
three toggle crossings (R88), each used only where R88 writes `draw()`. -/
structure StepInput where
  edge : Edge
  bus : BusPins
  colIn : Byte
  tickDraw : Bool
  ackDraw : Bool
  reqDraw : Bool
deriving DecidableEq, Repr, Inhabited

/-- The inputs that nothing has settled: the `n`-th one taken by a run. It has no body, so a claim holds for every
interleaving, transaction, column value and draw (R16, R80; log entry 2). -/
opaque Config.freeInput : Nat → StepInput

end Sys2Proof
end

