-- ==== Sys2Proof/Machine/State.lean ====
section
/-! DEFINITION. The state of the block, by the groups of 10_state.md R49 to R56, and the state after reset
(70_reset_and_hazards.md R350). -/

namespace Sys2Proof.Machine

/-- Clock prescaler, hclk domain (R49). -/
structure ClockPart where
  clkps : BitVec 4
  clkLock : Bool
  clkWin : BitVec 3
deriving DecidableEq, Repr

/-- Timer configuration, hclk domain (R50): staging, the committed word, the value in flight to tclk, and the
handshake. -/
structure ConfigPart where
  stgOcra : Byte
  stgA : Byte
  stgB : Byte
  ocra : Byte
  tcfgA : Byte
  tcfgB : BitVec 4
  tcfgImsk : BitVec 4
  xferCs : BitVec 3
  xferWgm : BitVec 3
  xferOcra : Byte
  reqTgl : Bool
  cfgBusy : Bool
  cfgPend : Bool
  ackS1 : Bool
  ackS2 : Bool
  ackS3 : Bool
deriving DecidableEq, Repr

/-- Tick synchronizer and flag, hclk domain (R51). -/
structure TickPart where
  tickS1 : Bool
  tickS2 : Bool
  tickS3 : Bool
  tickPend : Bool
deriving DecidableEq, Repr

/-- Row scanner and column sampler, hclk domain (R52). `rowOhN` has NUM_ROWS bits; the bits above them are 0
(log entry 7). -/
structure ScanPart where
  rowSel : BitVec 4
  rowValid : Bool
  rowOhN : BitVec 16
  scanBusy : Bool
  scanCnt : BitVec 8
  colS1 : Byte
  colS2 : Byte
  colData : Byte
deriving DecidableEq, Repr

/-- The transmitter's states (R53, R260). -/
inductive TxState where
  | idle
  | setup
  | active
  | hold
deriving DecidableEq, Repr

/-- Byte transmitter, hclk domain (R53). -/
structure TxPart where
  txData : Byte
  txState : TxState
  txCnt : BitVec 16
  strobe : Bool
deriving DecidableEq, Repr

/-- GPIO, hclk domain (R54). -/
structure GpioPart where
  caps : Bool
  clrAct : Bool
  clrCnt : BitVec 16
  rstAct : Bool
  rstCnt : BitVec 16
  pincfg : BitVec 4
deriving DecidableEq, Repr

/-- The tclk domain (R55). -/
structure TimerPart where
  tCs : BitVec 3
  tWgm : BitVec 3
  tOcra : Byte
  psc : BitVec 10
  tcnt : Byte
  tickTgl : Bool
  reqS1 : Bool
  reqS2 : Bool
  reqS3 : Bool
  ackTgl : Bool
deriving DecidableEq, Repr

/-- The change bits of the three toggle crossings: bookkeeping of the spec's model, not hardware (R56). -/
structure ChangeBits where
  tickChg : Bool
  ackChg : Bool
  reqChg : Bool
deriving DecidableEq, Repr

/-- The whole state. `params` are the build-time parameters (R9), which no step changes (log entry 1). `clock` to `chg`
are the block's elements. `rdata` is what the host's bus received at the last hclk edge (R84; log entry 4). `input` is
the inputs of the step about to be taken, `script` those of the steps after it that the outside world has settled, and
`drawn` counts the inputs taken from `Config.freeInput` (R80, R81; log entry 2). -/
structure State where
  params : Params
  clock : ClockPart
  config : ConfigPart
  tick : TickPart
  scan : ScanPart
  tx : TxPart
  gpio : GpioPart
  timer : TimerPart
  chg : ChangeBits
  rdata : Byte
  input : StepInput
  script : List StepInput
  drawn : Nat
deriving DecidableEq, Repr

/-- Why the machine stops with a fault. The block itself has none (60_exceptions.md R320). -/
inductive Fault where
  /-- Raised by `step` alone, where the parameter set is not legal: R12 gives it no meaning, and
  93_implementation_defined.md I20 makes that a `fault` (log entry 8). Safe: the model says nothing of such a block. -/
  | illegalParameters
deriving DecidableEq, Repr

/-- Why an instruction has no meaning in the model. -/
inductive Refusal where
  /-- Raised by an arm of `exec` whose instruction has no meaning yet; no arm does. Safe: the model says nothing. -/
  | notModelled (mnemonic : String)
  /-- Raised by `step` alone, where no row of the opcode map selects the sampled word; R112 says that this never
  happens (log entry 11). Safe: the model says nothing. -/
  | undecodedWord
deriving DecidableEq, Repr

/-- `NUM_ROWS` ones: the value of `row_oh_n` with no row driven (R52). -/
def rowOnes (p : Params) : BitVec 16 := BitVec.ofNat 16 (2 ^ p.numRows - 1)

/-- Reset value of the clock prescaler (R49, R350): CLKPS_RESET, unlocked, the window closed. -/
def ClockPart.reset (p : Params) : ClockPart where
  clkps := BitVec.ofNat 4 p.clkpsReset
  clkLock := false
  clkWin := 0#3

/-- Reset value of the timer configuration (R50, R350). -/
def ConfigPart.reset : ConfigPart where
  stgOcra := 0#8
  stgA := 0#8
  stgB := 0#8
  ocra := 0#8
  tcfgA := 0#8
  tcfgB := 0#4
  tcfgImsk := 0#4
  xferCs := 0#3
  xferWgm := 0#3
  xferOcra := 0#8
  reqTgl := false
  cfgBusy := false
  cfgPend := false
  ackS1 := false
  ackS2 := false
  ackS3 := false

/-- Reset value of the tick flag (R51, R350). -/
def TickPart.reset : TickPart where
  tickS1 := false
  tickS2 := false
  tickS3 := false
  tickPend := false

/-- Reset value of the scanner (R52, R350): `row_oh_n` all ones, the rest 0. -/
def ScanPart.reset (p : Params) : ScanPart where
  rowSel := 0#4
  rowValid := false
  rowOhN := rowOnes p
  scanBusy := false
  scanCnt := 0#8
  colS1 := 0#8
  colS2 := 0#8
  colData := 0#8

/-- Reset value of the transmitter (R53, R350). -/
def TxPart.reset : TxPart where
  txData := 0#8
  txState := .idle
  txCnt := 0#16
  strobe := false

/-- Reset value of the GPIO (R54, R350). -/
def GpioPart.reset : GpioPart where
  caps := false
  clrAct := false
  clrCnt := 0#16
  rstAct := false
  rstCnt := 0#16
  pincfg := 0#4

/-- Reset value of the tclk domain (R55, R350). -/
def TimerPart.reset : TimerPart where
  tCs := 0#3
  tWgm := 0#3
  tOcra := 0#8
  psc := 0#10
  tcnt := 0#8
  tickTgl := false
  reqS1 := false
  reqS2 := false
  reqS3 := false
  ackTgl := false

/-- Reset value of the change bits (R56, R350). -/
def ChangeBits.reset : ChangeBits where
  tickChg := false
  ackChg := false
  reqChg := false

/-- Inputs of an hclk edge with no transaction; the column pins and the draws are the model's choice (log entry 3). -/
def StepInput.quiet : StepInput where
  edge := .hclk
  bus := .idle
  colIn := 0
  tickDraw := false
  ackDraw := false
  reqDraw := false

/-- The state after reset of the block built with `p` (R350), with a quiet hclk edge to come and nothing scripted. -/
def State.resetWith (p : Params) : State where
  params := p
  clock := .reset p
  config := .reset
  tick := .reset
  scan := .reset p
  tx := .reset
  gpio := .reset
  timer := .reset
  chg := .reset
  rdata := 0#8
  input := StepInput.quiet
  script := []
  drawn := 0

/-- The state after reset of the reference block REF8 (R10, R350; log entry 1). -/
def State.reset : State := State.resetWith Params.ref8

end Sys2Proof.Machine
end

