-- ==== Sys2Proof/Machine/Bus.lean ====
section
/-! DEFINITION. The bus as sampled at one hclk edge (20_memory.md R83, 30_encoding.md R110), and the inputs of the steps
to come. -/

namespace Sys2Proof.Machine

/-- The transaction word on the bus, if any (R83, R110). With both strobes it is the write alone. A read word carries
`bus_wdata` in D, which the decoder ignores (R111). -/
def busWord (b : BusPins) : Option TxWord :=
  if b.wr then some (wordOf true b.addr b.wdata)
  else if b.rd then some (wordOf false b.addr b.wdata)
  else none

/-- The bus that carries a word (R110): `W = bus_wr`, `A = bus_addr`, `D = bus_wdata`, and `bus_rd` for a read. -/
def busOf (w : TxWord) : BusPins where
  addr := w.extractLsb' 8 4
  wdata := w.extractLsb' 0 8
  wr := w.getLsbD 12
  rd := !w.getLsbD 12

/-- The block with the given inputs for its next step (R81). -/
def State.withInput (s : State) (i : StepInput) : State := { s with input := i }

/-- Take the next step's inputs: the next scripted ones, else the next free ones (R80; log entry 2). -/
def nextInput (s : State) : State :=
  match s.script with
  | i :: rest => { s with input := i, script := rest }
  | [] => { s with input := Config.freeInput s.drawn, drawn := s.drawn + 1 }

/-- Apply a function to the next state of an outcome; a stop stays. -/
def mapNext (f : State → State) (o : Host.Outcome State Fault Refusal) : Host.Outcome State Fault Refusal :=
  match o with
  | .next s => .next (f s)
  | .fault r => .fault r
  | .refused r => .refused r

end Sys2Proof.Machine
end

