-- ==== Sys2Proof/Machine/Operands.lean ====
section
/-! DEFINITION. How a write's D is read (30_encoding.md R114), and the fields assembled from two registers or decoded
through a table (R115). -/

namespace Sys2Proof.Machine

/-- `D[3:0]`: CLKPS, TCFG_B, TCFG_IMSK and PINCFG take these bits (R114). -/
def lowNibble (d : Byte) : BitVec 4 := d.extractLsb' 0 4

/-- The enable pattern of CLKPR: `D == 0x80` (R141). -/
def isEnablePattern (d : Byte) : Bool := d == 0x80#8

/-- The change pattern of CLKPR: `D[7] == 0` and `D[6:4] == 0` (R141). -/
def isChangePattern (d : Byte) : Bool := !d.getLsbD 7 && d.extractLsb' 4 3 == 0#3

/-- The row index of a scan command: all of D, never truncated (R114, R232). -/
def rowIndex (d : Byte) : Nat := d.toNat

/-- `WGM = {tcfg_b[3], tcfg_a[1:0]}` (R115). -/
def wgmOf (tcfgB : BitVec 4) (tcfgA : Byte) : BitVec 3 :=
  BitVec.ofBool (tcfgB.getLsbD 3) ++ tcfgA.extractLsb' 0 2

/-- `CS = tcfg_b[2:0]` (R39). -/
def csOf (tcfgB : BitVec 4) : BitVec 3 := tcfgB.extractLsb' 0 3

/-- The CTC mode, `WGM = 0b010` (R39, R170). -/
def ctcMode : BitVec 3 := 0b010#3

/-- `div(CS)`: the timer's division, 0 where it is stopped (R115). -/
def csDivision (cs : BitVec 3) : Nat :=
  if cs = 1#3 then 1
  else if cs = 2#3 then 8
  else if cs = 3#3 then 64
  else if cs = 4#3 then 256
  else if cs = 5#3 then 1024
  else 0

/-- `clkdiv(CLKPS) = 2^CLKPS` (R115, R147). -/
def clkDivision (clkps : BitVec 4) : Nat := 2 ^ clkps.toNat

/-- Mask of the real columns: `(1 << NUM_COLS) − 1` (R236). -/
def columnMask (p : Params) : Byte := BitVec.ofNat 8 (2 ^ p.numCols - 1)

/-- `~(1 << r)` in NUM_ROWS bits: bit `r` 0 and every other bit 1 (R232). -/
def rowOneHot (p : Params) (r : Nat) : BitVec 16 := rowOnes p &&& ~~~(1#16 <<< r)

end Sys2Proof.Machine
end

