-- ==== Sys2Proof/Machine/Flags.lean ====
section
/-! DEFINITION. The status flags (10_state.md R48): the conditions that set and clear them, and the bytes through which
the host reads them (R35 to R47). -/

namespace Sys2Proof.Machine

/-- The pulse of the tick synchronizer: `tick_s2 != tick_s3` (42_tick_flag.md R202). -/
def tickPulse (t : TickPart) : Bool := t.tickS2 != t.tickS3

/-- OCIEA, TCFG_IMSK bit 1 (R40). -/
def ociea (c : ConfigPart) : Bool := c.tcfgImsk.getLsbD 1

/-- The set of TICK: a pulse while OCIEA, as committed before the edge, is 1 (R202). -/
def tickSet (s : State) : Bool := tickPulse s.tick && ociea s.config

/-- The acknowledge seen by hclk: `ack_s2 != ack_s3` (41_timer.md R168). -/
def ackSeen (c : ConfigPart) : Bool := c.ackS2 != c.ackS3

/-- The launch of a configuration transfer (R168). -/
def launches (commit : Bool) (c : ConfigPart) : Bool :=
  (commit && !c.cfgBusy) || (c.cfgBusy && ackSeen c && (c.cfgPend || commit))

/-- The load of the transferred configuration: `req_s2 != req_s3` (R169). -/
def loads (t : TimerPart) : Bool := t.reqS2 != t.reqS3

/-- The timer runs in CTC mode with a clock select in 1..5 (R170). -/
def running (t : TimerPart) : Bool :=
  t.tWgm == ctcMode && (1 ≤ t.tCs.toNat && t.tCs.toNat ≤ 5)

/-- TX_BUSY (R42, R260). -/
def txBusy (t : TxPart) : Bool := t.txState != .idle

/-- CLKPR as read: CLKPCE, LOCK, 0, CLKPS (R35, R140). -/
def clkprByte (c : ClockPart) : Byte :=
  BitVec.ofBool (c.clkWin != 0#3) ++ BitVec.ofBool c.clkLock ++ 0#2 ++ c.clkps

/-- TCFG_B as read (R39, R164). -/
def tcfgBByte (c : ConfigPart) : Byte := 0#4 ++ c.tcfgB

/-- TCFG_IMSK as read (R40, R166). -/
def tcfgImskByte (c : ConfigPart) : Byte := 0#4 ++ c.tcfgImsk

/-- TICK as read (R41, R207). -/
def tickByte (t : TickPart) : Byte := 0#7 ++ BitVec.ofBool t.tickPend

/-- STATUS as read (R42, R209). -/
def statusByte (s : State) : Byte :=
  0#2 ++ BitVec.ofBool s.gpio.rstAct ++ BitVec.ofBool s.gpio.clrAct ++ BitVec.ofBool (txBusy s.tx) ++
    BitVec.ofBool s.scan.scanBusy ++ BitVec.ofBool s.config.cfgBusy ++ BitVec.ofBool s.tick.tickPend

/-- ROW_SCAN as read: ROW_VALID, 0, ROW (R43, R231). -/
def rowScanByte (c : ScanPart) : Byte := BitVec.ofBool c.rowValid ++ 0#3 ++ c.rowSel

/-- LED as read (R46, R281). -/
def ledByte (g : GpioPart) : Byte := 0#7 ++ BitVec.ofBool g.caps

/-- PULSE as read: RST_BUSY, CLR_BUSY (R46, R283). -/
def pulseByte (g : GpioPart) : Byte := 0#6 ++ BitVec.ofBool g.rstAct ++ BitVec.ofBool g.clrAct

/-- PINCFG as read (R47, R287). -/
def pincfgByte (g : GpioPart) : Byte := 0#4 ++ g.pincfg

/-- The timer configuration word `TCFG = {tcfg_imsk, tcfg_b, tcfg_a, ocra}` as the host reads it, with 0 in the
reserved bits (R36, R90). -/
def tcfgWord (c : ConfigPart) : BitVec 32 := tcfgImskByte c ++ tcfgBByte c ++ c.tcfgA ++ c.ocra

end Sys2Proof.Machine
end

