-- ==== Sys2Proof/Machine/Ops.lean ====
section
/-! DEFINITION. What an edge does by itself. `hclkEdge` is an hclk edge with no transaction, `tclkEdge` a tclk edge and
`resetStep` the reset step; a transaction's meaning puts its own effect on top of `hclkEdge`. Every right-hand side
reads the state just before the edge (00_scope.md R14, 20_memory.md R81). The block takes no exception, so there is no
exception entry or return here (60_exceptions.md R320, R326, R327). -/

namespace Sys2Proof.Machine

/-- The first synchronizer flop: a draw at the first edge after a change, else the source (20_memory.md R88). -/
def firstFlop (chg draw src : Bool) : Bool := if chg then draw else src

/-! ### Clock prescaler -/

/-- The countdown of the CLKPR window (40_clock_prescaler.md R144). -/
def windowCountdown (c : ClockPart) : ClockPart :=
  { c with clkWin := if c.clkWin = 0#3 then 0#3 else c.clkWin - 1#3 }

/-! ### Timer configuration and its handshake -/

/-- The commit of all four bytes (41_timer.md R167). -/
def commitWord (d : Byte) (c : ConfigPart) : ConfigPart :=
  { c with
    ocra := c.stgOcra
    tcfgA := c.stgA
    tcfgB := lowNibble c.stgB
    tcfgImsk := lowNibble d }

/-- The handshake on the hclk side (R168). `c` holds the committed word as it is just after the edge, so that its timer
part is the rule's `cur`; its other fields are those before the edge. -/
def handshake (commit : Bool) (ackFlop : Bool) (c : ConfigPart) : ConfigPart :=
  let synced := { c with ackS1 := ackFlop, ackS2 := c.ackS1, ackS3 := c.ackS2 }
  if launches commit c then
    { synced with
      xferCs := csOf c.tcfgB
      xferWgm := wgmOf c.tcfgB c.tcfgA
      xferOcra := c.ocra
      reqTgl := !c.reqTgl
      cfgBusy := true
      cfgPend := false }
  else if c.cfgBusy && ackSeen c then { synced with cfgBusy := false }
  else if c.cfgBusy && commit then { synced with cfgPend := true }
  else synced

/-- The first acknowledge flop at this edge (R168, R88). -/
def ackFlop (s : State) : Bool := firstFlop s.chg.ackChg s.input.ackDraw s.timer.ackTgl

/-- The configuration part at an hclk edge with no commit (R168). -/
def configEdge (s : State) : ConfigPart := handshake false (ackFlop s) s.config

/-- The configuration part at an hclk edge that commits with `d` (R167, R168). -/
def configCommit (d : Byte) (s : State) : ConfigPart := handshake true (ackFlop s) (commitWord d s.config)

/-- The change bits after an hclk edge: tick and acknowledge taken, the request set by a launch (R88, R168, R201). -/
def chgEdge (commit : Bool) (s : State) : ChangeBits where
  tickChg := false
  ackChg := false
  reqChg := launches commit s.config || s.chg.reqChg

/-! ### Tick flag -/

/-- The tick synchronizer and flag at an hclk edge; `clear` is a poll or a commit (42_tick_flag.md R201, R206). -/
def tickEdge (clear : Bool) (s : State) : TickPart where
  tickS1 := firstFlop s.chg.tickChg s.input.tickDraw s.timer.tickTgl
  tickS2 := s.tick.tickS1
  tickS3 := s.tick.tickS2
  tickPend := tickSet s || (s.tick.tickPend && !clear)

/-! ### Row scanner and column sampler -/

/-- The captured bitmask (43_row_scan.md R236). -/
def capturedColumns (p : Params) (colS2 : Byte) : Byte :=
  (if p.colActiveLow then ~~~colS2 else colS2) &&& columnMask p

/-- The column synchronizer (R238). -/
def sampleColumns (colIn : Byte) (c : ScanPart) : ScanPart :=
  { c with colS1 := colIn, colS2 := c.colS1 }

/-- The scanner at an hclk edge with no accepted command: the synchronizer, then the settling count or the capture of a
running scan (R235, R236, R238). -/
def scanEdge (s : State) : ScanPart :=
  let c := s.scan
  let sampled := sampleColumns s.input.colIn c
  if c.scanBusy then
    if c.scanCnt = 0#8 then { sampled with colData := capturedColumns s.params c.colS2, scanBusy := false }
    else { sampled with scanCnt := c.scanCnt - 1#8 }
  else sampled

/-! ### Byte transmitter -/

/-- The transmitter at an hclk edge with no accepted byte (44_strobe_tx.md R263 to R265). -/
def txEdge (s : State) : TxPart :=
  let t := s.tx
  match t.txState with
  | .idle => t
  | .setup => { t with strobe := true, txCnt := BitVec.ofNat 16 (s.params.strobeCycles - 1), txState := .active }
  | .active =>
    if t.txCnt = 0#16 then { t with strobe := false, txState := .hold }
    else { t with txCnt := t.txCnt - 1#16 }
  | .hold => { t with txState := .idle }

/-! ### GPIO -/

/-- One pulse generator's (`act`, `cnt`) at an hclk edge with no accepted start (45_gpio.md R285). -/
def pulseEdge (act : Bool) (cnt : BitVec 16) : Bool × BitVec 16 :=
  if act then (if cnt = 0#16 then (false, cnt) else (true, cnt - 1#16)) else (act, cnt)

/-- One pulse generator's (`act`, `cnt`) at an edge whose WR_PULSE has its start bit at `start` (R284). -/
def pulseStart (p : Params) (start : Bool) (act : Bool) (cnt : BitVec 16) : Bool × BitVec 16 :=
  if start && !act then (true, BitVec.ofNat 16 (p.pulseCycles - 1)) else pulseEdge act cnt

/-- The GPIO at an hclk edge where WR_PULSE has the start bits `clr` and `rst` (R284, R285). -/
def gpioPulse (clr rst : Bool) (s : State) : GpioPart :=
  let g := s.gpio
  let c := pulseStart s.params clr g.clrAct g.clrCnt
  let r := pulseStart s.params rst g.rstAct g.rstCnt
  { g with clrAct := c.1, clrCnt := c.2, rstAct := r.1, rstCnt := r.2 }

/-- The GPIO at an hclk edge with no pulse command (R285). -/
def gpioEdge (s : State) : GpioPart := gpioPulse false false s

/-! ### The edges -/

/-- An hclk edge with no transaction: the tclk domain keeps its state, and `bus_rdata` is 0 (R81, R83, R84). -/
def hclkEdge (s : State) : State :=
  { s with
    clock := windowCountdown s.clock
    config := configEdge s
    tick := tickEdge false s
    scan := scanEdge s
    tx := txEdge s
    gpio := gpioEdge s
    chg := chgEdge false s
    rdata := 0#8 }

/-- An hclk edge whose transaction is a read of the value `v` with no side effect (R84). -/
def readEdge (v : Byte) (s : State) : State := { hclkEdge s with rdata := v }

/-- The prescaler and the counter at a tclk edge that is not a load (R170 to R172). The first component is the timer;
the second says whether the edge is a tick event. -/
def countEdge (t : TimerPart) : TimerPart × Bool :=
  if running t then
    if csDivision t.tCs - 1 ≤ t.psc.toNat then
      if t.tcnt = t.tOcra then ({ t with psc := 0#10, tcnt := 0#8, tickTgl := !t.tickTgl }, true)
      else ({ t with psc := 0#10, tcnt := t.tcnt + 1#8 }, false)
    else ({ t with psc := t.psc + 1#10 }, false)
  else ({ t with psc := 0#10 }, false)

/-- The load of the transferred configuration: the timer restarts, and the acknowledge toggles (R169). -/
def loadTimer (c : ConfigPart) (t : TimerPart) : TimerPart :=
  { t with
    tCs := c.xferCs
    tWgm := c.xferWgm
    tOcra := c.xferOcra
    psc := 0#10
    tcnt := 0#8
    ackTgl := !t.ackTgl }

/-- The timer but for its request synchronizer at a tclk edge, and whether the edge is a tick event (R169). -/
def loadOrCount (s : State) : TimerPart × Bool :=
  if loads s.timer then (loadTimer s.config s.timer, false) else countEdge s.timer

/-- A tclk edge: the request synchronizer, the load or the count, and the change bits (R88, R169, R172). -/
def tclkEdge (s : State) : State :=
  let r := loadOrCount s
  { s with
    timer :=
      { r.1 with
        reqS1 := firstFlop s.chg.reqChg s.input.reqDraw s.config.reqTgl
        reqS2 := s.timer.reqS1
        reqS3 := s.timer.reqS2 }
    chg :=
      { tickChg := r.2 || s.chg.tickChg
        ackChg := loads s.timer || s.chg.ackChg
        reqChg := false } }

/-- The reset step: every element at its reset value at once (70_reset_and_hazards.md R350, R351). The parameters and
the inputs to come are not elements of the block. -/
def resetStep (s : State) : State :=
  { State.resetWith s.params with input := s.input, script := s.script, drawn := s.drawn }

/-- The value a read of address `a` returns (20_memory.md R84, 10_state.md R34). -/
def readValue (a : RegAddr) (s : State) : Byte :=
  match a.toNat with
  | 0x0 => clkprByte s.clock
  | 0x1 => s.config.ocra
  | 0x2 => s.config.tcfgA
  | 0x3 => tcfgBByte s.config
  | 0x4 => tcfgImskByte s.config
  | 0x5 => tickByte s.tick
  | 0x6 => statusByte s
  | 0x7 => rowScanByte s.scan
  | 0x8 => s.scan.colData
  | 0x9 => s.tx.txData
  | 0xA => ledByte s.gpio
  | 0xB => pulseByte s.gpio
  | 0xC => pincfgByte s.gpio
  | _ => 0#8

end Sys2Proof.Machine
end

