-- ==== Sys2Proof/Machine/ClockPrescaler.lean ====
section
/-! DEFINITION. The meanings of RD_CLKPR and WR_CLKPR (40_clock_prescaler.md). -/

namespace Sys2Proof.Machine

/-- RD_CLKPR returns CLKPCE, LOCK and CLKPS, with no side effect (R140). -/
def execRdClkpr (s : State) : Host.Outcome State Fault Refusal :=
  .next (readEdge (clkprByte s.clock) s)

/-- The clock prescaler at the edge of a write of CLKPR: the enable pattern opens the window for four edges, a change
pattern inside it is accepted or, for CLKPS 9..15, refused with the window closed, and every other write is one that only
counts the window down (R141 to R144). -/
def clkprWrite (d : Byte) (c : ClockPart) : ClockPart :=
  if !c.clkLock && c.clkWin == 0#3 && isEnablePattern d then { c with clkWin := 4#3 }
  else if !c.clkLock && c.clkWin != 0#3 && isChangePattern d then
    if (lowNibble d).toNat ≤ 8 then { c with clkps := lowNibble d, clkLock := true, clkWin := 0#3 }
    else { c with clkWin := 0#3 }
  else windowCountdown c

/-- WR_CLKPR writes the prescaler register through the protocol (R141). -/
def execWrClkpr (d : Byte) (s : State) : Host.Outcome State Fault Refusal :=
  .next { hclkEdge s with clock := clkprWrite d s.clock }

end Sys2Proof.Machine
end

