-- ==== Sys2Proof/Machine/Gpio.lean ====
section
/-! DEFINITION. The meanings of the LED, PULSE and PINCFG transactions (45_gpio.md). -/

namespace Sys2Proof.Machine

/-- RD_LED returns the caps LED level (R281). -/
def execRdLed (s : State) : Host.Outcome State Fault Refusal :=
  .next (readEdge (ledByte s.gpio) s)

/-- WR_LED sets the caps LED level from `D[0]` (R282). -/
def execWrLed (d : Byte) (s : State) : Host.Outcome State Fault Refusal :=
  .next { hclkEdge s with gpio := { gpioEdge s with caps := d.getLsbD 0 } }

/-- RD_PULSE returns which pulses are running (R283). -/
def execRdPulse (s : State) : Host.Outcome State Fault Refusal :=
  .next (readEdge (pulseByte s.gpio) s)

/-- WR_PULSE starts the screen-clear pulse (`D[0]`), the system-reset pulse (`D[1]`) or both (R284). -/
def execWrPulse (d : Byte) (s : State) : Host.Outcome State Fault Refusal :=
  .next { hclkEdge s with gpio := gpioPulse (d.getLsbD 0) (d.getLsbD 1) s }

/-- RD_PINCFG returns the output enables and the pull-up control (R287). -/
def execRdPincfg (s : State) : Host.Outcome State Fault Refusal :=
  .next (readEdge (pincfgByte s.gpio) s)

/-- WR_PINCFG sets the output enables and the pull-up control from `D[3:0]` (R288). -/
def execWrPincfg (d : Byte) (s : State) : Host.Outcome State Fault Refusal :=
  .next { hclkEdge s with gpio := { gpioEdge s with pincfg := lowNibble d } }

end Sys2Proof.Machine
end

