-- ==== Sys2Proof/Machine/Reserved.lean ====
section
/-! DEFINITION. The meanings of the transactions at the reserved addresses 0xD to 0xF (46_reserved.md). -/

namespace Sys2Proof.Machine

/-- RD_RSVD_D returns 0x00 (R310). -/
def execRdRsvdD (s : State) : Host.Outcome State Fault Refusal :=
  .next (readEdge 0#8 s)

/-- WR_RSVD_D is ignored: the edge is one with no transaction (R311). -/
def execWrRsvdD (_d : Byte) (s : State) : Host.Outcome State Fault Refusal :=
  .next (hclkEdge s)

/-- RD_RSVD_E returns 0x00 (R312). -/
def execRdRsvdE (s : State) : Host.Outcome State Fault Refusal :=
  .next (readEdge 0#8 s)

/-- WR_RSVD_E is ignored: the edge is one with no transaction (R313). -/
def execWrRsvdE (_d : Byte) (s : State) : Host.Outcome State Fault Refusal :=
  .next (hclkEdge s)

/-- RD_RSVD_F returns 0x00 (R314). -/
def execRdRsvdF (s : State) : Host.Outcome State Fault Refusal :=
  .next (readEdge 0#8 s)

/-- WR_RSVD_F is ignored: the edge is one with no transaction (R315). -/
def execWrRsvdF (_d : Byte) (s : State) : Host.Outcome State Fault Refusal :=
  .next (hclkEdge s)

end Sys2Proof.Machine
end

