-- ==== Sys2Proof/Machine/RowScan.lean ====
section
/-! DEFINITION. The meanings of the ROW_SCAN and COL_DATA transactions (43_row_scan.md). -/

namespace Sys2Proof.Machine

/-- RD_ROW_SCAN returns ROW_VALID and the row driven (R231). -/
def execRdRowScan (s : State) : Host.Outcome State Fault Refusal :=
  .next (readEdge (rowScanByte s.scan) s)

/-- The scanner at the edge of a scan command for row `r`: ignored while busy, a new scan for a row in range, a zero
result for a row out of range (R232 to R234). -/
def scanCommand (r : Nat) (s : State) : ScanPart :=
  if s.scan.scanBusy then scanEdge s
  else if r < s.params.numRows then
    { scanEdge s with
      rowSel := BitVec.ofNat 4 r
      rowValid := true
      rowOhN := rowOneHot s.params r
      scanCnt := BitVec.ofNat 8 s.params.settleCycles
      scanBusy := true }
  else { scanEdge s with colData := 0#8 }

/-- WR_ROW_SCAN starts a scan of the row that D numbers (R232). -/
def execWrRowScan (d : Byte) (s : State) : Host.Outcome State Fault Refusal :=
  .next { hclkEdge s with scan := scanCommand (rowIndex d) s }

/-- RD_COL_DATA returns the column bitmask of the last scan (R239). -/
def execRdColData (s : State) : Host.Outcome State Fault Refusal :=
  .next (readEdge s.scan.colData s)

/-- WR_COL_DATA is ignored: the edge is one with no transaction (R240). -/
def execWrColData (_d : Byte) (s : State) : Host.Outcome State Fault Refusal :=
  .next (hclkEdge s)

end Sys2Proof.Machine
end

