-- ==== Sys2Proof/Machine/StrobeTx.lean ====
section
/-! DEFINITION. The meanings of the TX_DATA transactions (44_strobe_tx.md). -/

namespace Sys2Proof.Machine

/-- RD_TX_DATA returns the data port latch (R262). -/
def execRdTxData (s : State) : Host.Outcome State Fault Refusal :=
  .next (readEdge s.tx.txData s)

/-- The transmitter at the edge of a transmit command: accepted in IDLE, dropped while busy (R261, R265, R268). -/
def txCommand (d : Byte) (s : State) : TxPart :=
  if txBusy s.tx then txEdge s
  else { s.tx with txData := d, txState := .setup }

/-- WR_TX_DATA starts a strobed transfer of D (R261). -/
def execWrTxData (d : Byte) (s : State) : Host.Outcome State Fault Refusal :=
  .next { hclkEdge s with tx := txCommand d s }

end Sys2Proof.Machine
end

