-- ==== Sys2Proof/Machine/TickFlag.lean ====
section
/-! DEFINITION. The meanings of the TICK and STATUS transactions (42_tick_flag.md R207 to R210). -/

namespace Sys2Proof.Machine

/-- RD_TICK, the poll: it returns the flag as before the edge and clears it unless it is set at this edge (R205, R207). -/
def execRdTick (s : State) : Host.Outcome State Fault Refusal :=
  .next { readEdge (tickByte s.tick) s with tick := tickEdge true s }

/-- WR_TICK is ignored: the edge is one with no transaction, and the flag is not polled (R208). -/
def execWrTick (_d : Byte) (s : State) : Host.Outcome State Fault Refusal :=
  .next (hclkEdge s)

/-- RD_STATUS returns the busy flags and a peek at the tick flag, with no side effect (R209). -/
def execRdStatus (s : State) : Host.Outcome State Fault Refusal :=
  .next (readEdge (statusByte s) s)

/-- WR_STATUS is ignored: the edge is one with no transaction (R210). -/
def execWrStatus (_d : Byte) (s : State) : Host.Outcome State Fault Refusal :=
  .next (hclkEdge s)

end Sys2Proof.Machine
end

