-- ==== Sys2Proof/Machine/Timer.lean ====
section
/-! DEFINITION. The meanings of the timer configuration's transactions (41_timer.md R160 to R168). -/

namespace Sys2Proof.Machine

/-- RD_OCRA returns the committed compare target (R160). -/
def execRdOcra (s : State) : Host.Outcome State Fault Refusal :=
  .next (readEdge s.config.ocra s)

/-- WR_OCRA stages the compare target (R161). -/
def execWrOcra (d : Byte) (s : State) : Host.Outcome State Fault Refusal :=
  .next { hclkEdge s with config := { configEdge s with stgOcra := d } }

/-- RD_TCFG_A returns the committed byte A (R162). -/
def execRdTcfgA (s : State) : Host.Outcome State Fault Refusal :=
  .next (readEdge s.config.tcfgA s)

/-- WR_TCFG_A stages byte A (R163). -/
def execWrTcfgA (d : Byte) (s : State) : Host.Outcome State Fault Refusal :=
  .next { hclkEdge s with config := { configEdge s with stgA := d } }

/-- RD_TCFG_B returns the committed byte B, bits 7:4 reading 0 (R164). -/
def execRdTcfgB (s : State) : Host.Outcome State Fault Refusal :=
  .next (readEdge (tcfgBByte s.config) s)

/-- WR_TCFG_B stages byte B with its bits 7:4 dropped (R165). -/
def execWrTcfgB (d : Byte) (s : State) : Host.Outcome State Fault Refusal :=
  .next { hclkEdge s with config := { configEdge s with stgB := (lowNibble d).setWidth 8 } }

/-- RD_TCFG_IMSK returns the committed interrupt-mask byte, bits 7:4 reading 0 (R166). -/
def execRdTcfgImsk (s : State) : Host.Outcome State Fault Refusal :=
  .next (readEdge (tcfgImskByte s.config) s)

/-- WR_TCFG_IMSK sets the interrupt-mask byte and commits the whole word at one edge, clears TICK unless a tick is set
at this edge, and launches or queues the transfer to tclk (R167, R168, 42_tick_flag.md R206). -/
def execWrTcfgImsk (d : Byte) (s : State) : Host.Outcome State Fault Refusal :=
  .next { hclkEdge s with
    config := configCommit d s
    tick := tickEdge true s
    chg := chgEdge true s }

end Sys2Proof.Machine
end

