-- ==== Sys2Proof/Machine/Dispatch.lean ====
section
/-! DEFINITION. One hclk edge whose transaction is the given one, one arm per transaction. -/

namespace Sys2Proof.Machine

def exec (i : Instr) (s : State) : Host.Outcome State Fault Refusal :=
  match i with
  | .rdClkpr => Sys2Proof.Machine.execRdClkpr s
  | .wrClkpr d => Sys2Proof.Machine.execWrClkpr d s
  | .rdOcra => Sys2Proof.Machine.execRdOcra s
  | .wrOcra d => Sys2Proof.Machine.execWrOcra d s
  | .rdTcfgA => Sys2Proof.Machine.execRdTcfgA s
  | .wrTcfgA d => Sys2Proof.Machine.execWrTcfgA d s
  | .rdTcfgB => Sys2Proof.Machine.execRdTcfgB s
  | .wrTcfgB d => Sys2Proof.Machine.execWrTcfgB d s
  | .rdTcfgImsk => Sys2Proof.Machine.execRdTcfgImsk s
  | .wrTcfgImsk d => Sys2Proof.Machine.execWrTcfgImsk d s
  | .rdTick => Sys2Proof.Machine.execRdTick s
  | .wrTick d => Sys2Proof.Machine.execWrTick d s
  | .rdStatus => Sys2Proof.Machine.execRdStatus s
  | .wrStatus d => Sys2Proof.Machine.execWrStatus d s
  | .rdRowScan => Sys2Proof.Machine.execRdRowScan s
  | .wrRowScan d => Sys2Proof.Machine.execWrRowScan d s
  | .rdColData => Sys2Proof.Machine.execRdColData s
  | .wrColData d => Sys2Proof.Machine.execWrColData d s
  | .rdTxData => Sys2Proof.Machine.execRdTxData s
  | .wrTxData d => Sys2Proof.Machine.execWrTxData d s
  | .rdLed => Sys2Proof.Machine.execRdLed s
  | .wrLed d => Sys2Proof.Machine.execWrLed d s
  | .rdPulse => Sys2Proof.Machine.execRdPulse s
  | .wrPulse d => Sys2Proof.Machine.execWrPulse d s
  | .rdPincfg => Sys2Proof.Machine.execRdPincfg s
  | .wrPincfg d => Sys2Proof.Machine.execWrPincfg d s
  | .rdRsvdD => Sys2Proof.Machine.execRdRsvdD s
  | .wrRsvdD d => Sys2Proof.Machine.execWrRsvdD d s
  | .rdRsvdE => Sys2Proof.Machine.execRdRsvdE s
  | .wrRsvdE d => Sys2Proof.Machine.execWrRsvdE d s
  | .rdRsvdF => Sys2Proof.Machine.execRdRsvdF s
  | .wrRsvdF d => Sys2Proof.Machine.execWrRsvdF d s

end Sys2Proof.Machine
end

