-- ==== Sys2Proof/Machine/Step.lean ====
section
/-! DEFINITION. One step of the block: one edge, or a reset (20_memory.md R80). -/

namespace Sys2Proof.Machine

/-- An hclk edge: the transaction on the bus, if there is one (R83). -/
def hclkStep (s : State) : Host.Outcome State Fault Refusal :=
  match busWord s.input.bus with
  | none => .next (hclkEdge s)
  | some w =>
    match decode w with
    | .ok i => exec i s
    | .error _ => .refused .undecodedWord

/-- The step of the agent whose turn it is (R8, R80). -/
def edgeStep (s : State) : Host.Outcome State Fault Refusal :=
  match s.input.edge with
  | .hclk => hclkStep s
  | .tclk => .next (tclkEdge s)
  | .reset => .next (resetStep s)

/-- One step: an illegal parameter set has no meaning (R12, I20); otherwise the edge, and then the next step's inputs. -/
def step (s : State) : Host.Outcome State Fault Refusal :=
  if s.params.Legal then mapNext nextInput (edgeStep s) else .fault .illegalParameters

/-- `s` with the transaction whose word is the low 13 bits of `w` on the bus of an hclk edge, so that the next step runs
it (R83, R110; log entry 5). -/
def State.withFetchWord (s : State) (nbits w : Nat) : State :=
  { s with input := { s.input with edge := .hclk, bus := busOf (BitVec.ofNat 13 (w % 2 ^ nbits)) } }

end Sys2Proof.Machine
end

