-- ==== Sys2Proof/Machine/Pins.lean ====
section
/-! DEFINITION. The output pins (10_state.md R58, 45_gpio.md R289 to R291, 42_tick_flag.md R211). -/

namespace Sys2Proof.Machine

/-- The level of a signal with its polarity (00_scope.md R17). -/
def pinLevel (activeHigh asserted : Bool) : Bool := if activeHigh then asserted else !asserted

/-- A pin or pin group while its enable is 1; `none` is Z (R17, R289). -/
def driven {α : Type} (enable : Bool) (v : α) : Option α := if enable then some v else none

/-- PINCFG bit 0 (R47). -/
def rowOe (g : GpioPart) : Bool := g.pincfg.getLsbD 0

/-- PINCFG bit 1 (R47). -/
def colPu (g : GpioPart) : Bool := g.pincfg.getLsbD 1

/-- PINCFG bit 2 (R47). -/
def txOe (g : GpioPart) : Bool := g.pincfg.getLsbD 2

/-- PINCFG bit 3 (R47). -/
def auxOe (g : GpioPart) : Bool := g.pincfg.getLsbD 3

/-- `bus_rdata` in the cycle before the next edge: the addressed register's value for a read, else 0 (20_memory.md R83,
R84). -/
def busRdata (s : State) : Byte :=
  if s.input.bus.rd && !s.input.bus.wr then readValue s.input.bus.addr s else 0#8

/-- The output pins. `clkSysDivision` stands for `clk_sys`, which is tclk, `clk_src` divided by it (R148; log entry
9). -/
structure OutputPins where
  rowAddr : Option (BitVec 4)
  rowEn : Option Bool
  rowN : Option (BitVec 16)
  dataOut : Option Byte
  strobeO : Option Bool
  capsLedO : Option Bool
  scrClrO : Option Bool
  sysRstO : Option Bool
  tickIrq : Bool
  colPuO : Bool
  clkSysDivision : Nat
  busRdataO : Byte
deriving DecidableEq, Repr

/-- The value of every output pin (R58). -/
def outputs (s : State) : OutputPins where
  rowAddr := driven (rowOe s.gpio) s.scan.rowSel
  rowEn := driven (rowOe s.gpio) s.scan.rowValid
  rowN := driven (rowOe s.gpio) s.scan.rowOhN
  dataOut := driven (txOe s.gpio) s.tx.txData
  strobeO := driven (txOe s.gpio) (pinLevel s.params.strobeActiveHigh s.tx.strobe)
  capsLedO := driven (auxOe s.gpio) (pinLevel s.params.ledActiveHigh s.gpio.caps)
  scrClrO := driven (auxOe s.gpio) (pinLevel s.params.clrActiveHigh s.gpio.clrAct)
  sysRstO := driven (auxOe s.gpio) (pinLevel s.params.rstActiveHigh s.gpio.rstAct)
  tickIrq := s.tick.tickPend && ociea s.config
  colPuO := colPu s.gpio
  clkSysDivision := clkDivision s.clock.clkps
  busRdataO := busRdata s

end Sys2Proof.Machine
end

