-- ==== Sys2Proof/Machine/Environment.lean ====
section
/-! DEFINITION. The reference environment of the column pins (43_row_scan.md R248). It is one possible `Env` agent; the
block's `step` takes any column value at every edge. -/

namespace Sys2Proof.Machine

/-- One spell of moving pins: at each of the next `left` hclk edges, a column of `columns` whose settled value differs
before and after the change is a draw (R248). -/
structure PinMove where
  left : Nat
  columns : List Nat
  before : List (Option Bool)
  after : List (Option Bool)
deriving DecidableEq, Repr

/-- The environment (R248): the key matrix, one byte a row with bit `c` for column `c`; `K_ENV`; the moves under way. -/
structure RefEnv where
  pressed : List Byte
  kEnv : Nat
  moves : List PinMove
deriving DecidableEq, Repr

/-- Is the key at row `r`, column `c` pressed? -/
def RefEnv.isPressed (e : RefEnv) (r c : Nat) : Bool := (e.pressed.getD r 0).getLsbD c

/-- `drive_r`: a row is driven, and it is `row_sel` (R248). -/
def drivenRow (s : State) : Option Nat :=
  if rowOe s.gpio && s.scan.rowValid then some s.scan.rowSel.toNat else none

/-- Does a pressed key connect column `c` to the driven row? -/
def RefEnv.keyDown (e : RefEnv) (s : State) (c : Nat) : Bool :=
  match drivenRow s with
  | some r => e.isPressed r c
  | none => false

/-- `settled(c)` (R248); `none` is a floating input, which reads as a draw. -/
def RefEnv.settled (e : RefEnv) (s : State) (c : Nat) : Option Bool :=
  if s.params.colActiveLow then
    if e.keyDown s c then some false
    else if colPu s.gpio then some true
    else none
  else some (e.keyDown s c)

/-- The settled values of the eight columns. -/
def RefEnv.settledAll (e : RefEnv) (s : State) : List (Option Bool) := (List.range 8).map (e.settled s)

/-- Is column `c` moved by `m` between two different settled values? -/
def PinMove.shakes (m : PinMove) (c : Nat) : Bool :=
  decide (0 < m.left) && m.columns.contains c && m.before.getD c none != m.after.getD c none

/-- The sample of column `c` at the next hclk edge, with `d` its draw (R248). Columns from NUM_COLS on may have any
value. -/
def RefEnv.sampleColumn (e : RefEnv) (s : State) (d : Bool) (c : Nat) : Bool :=
  if s.params.numCols ≤ c then d
  else if e.moves.any (fun m => m.shakes c) then d
  else (e.settled s c).getD d

/-- `col_in_sample` at the next hclk edge, with one draw for each column (R248). -/
def RefEnv.sample (e : RefEnv) (s : State) (draws : Byte) : Byte :=
  (List.range 8).foldl (fun acc c => if e.sampleColumn s (draws.getLsbD c) c then acc ||| (1#8 <<< c) else acc) 0

/-- An hclk edge has passed: the moves under way have one edge less. -/
def RefEnv.tickMoves (e : RefEnv) : RefEnv :=
  { e with moves := (e.moves.map (fun m => { m with left := m.left - 1 })).filter (fun m => decide (0 < m.left)) }

/-- After a step of the block from `s` to `t`: a change of `row_valid`, `row_sel` or ROW_OE moves every column at the
`K_ENV − 1` edges that follow (R248). -/
def RefEnv.seesRow (e : RefEnv) (s t : State) : RefEnv :=
  if s.scan.rowValid = t.scan.rowValid ∧ s.scan.rowSel = t.scan.rowSel ∧ rowOe s.gpio = rowOe t.gpio then e
  else
    let m : PinMove :=
      { left := e.kEnv - 1, columns := List.range 8, before := e.settledAll s, after := e.settledAll t }
    { e with moves := m :: e.moves }

/-- The environment changes key (`r`, `c`) between two hclk edges; on the driven row that moves column `c` at the next
`K_ENV` edges (R248). -/
def RefEnv.setKey (e : RefEnv) (s : State) (r c : Nat) (down : Bool) : RefEnv :=
  let row := e.pressed.getD r 0
  let row' := if down then row ||| (1#8 <<< c) else row &&& ~~~(1#8 <<< c)
  let e' := { e with pressed := e.pressed.set r row' }
  if drivenRow s = some r ∧ e.isPressed r c ≠ down then
    let m : PinMove := { left := e.kEnv, columns := [c], before := e.settledAll s, after := e'.settledAll s }
    { e' with moves := m :: e.moves }
  else e'

end Sys2Proof.Machine
end

