-- ==== Sys2Proof/Machine/HostProgram.lean ====
section
/-! DEFINITION. The `Host` agent running a program in the assembler syntax (30_encoding.md R120 to R122) with the
pseudo-operations of the source's interface (R129 to R137). It stands outside the block (00_scope.md R8); the block's
`step` takes any host's transactions. -/

namespace Sys2Proof.Machine

/-- `<reg>` of a line (R120): a register name of R34, or `@0xN` for address N. -/
inductive RegRef where
  | clkpr
  | ocra
  | tcfgA
  | tcfgB
  | tcfgImsk
  | tick
  | status
  | rowScan
  | colData
  | txData
  | led
  | pulse
  | pincfg
  | address (n : Nat)
deriving DecidableEq, Repr

/-- The address a register reference stands for (R34, R120). -/
def RegRef.addr : RegRef → RegAddr
  | .clkpr => 0x0
  | .ocra => 0x1
  | .tcfgA => 0x2
  | .tcfgB => 0x3
  | .tcfgImsk => 0x4
  | .tick => 0x5
  | .status => 0x6
  | .rowScan => 0x7
  | .colData => 0x8
  | .txData => 0x9
  | .led => 0xA
  | .pulse => 0xB
  | .pincfg => 0xC
  | .address n => BitVec.ofNat 4 n

/-- Is the reference in the map's range (R86, R120)? -/
def RegRef.inRange : RegRef → Bool
  | .address n => n < 16
  | .clkpr | .ocra | .tcfgA | .tcfgB | .tcfgImsk | .tick | .status | .rowScan | .colData => true
  | .txData | .led | .pulse | .pincfg => true

/-- A line of a host program (R120 to R122, R129 to R137); comments are left out. `boot` is the whole boot sequence of
70_reset_and_hazards.md R355. -/
inductive Line where
  | rd (r : RegRef)
  | wr (r : RegRef) (v : Nat)
  | waitClr (r : RegRef) (mask : Nat)
  | idle (n : Nat)
  | configureClock (p : Nat)
  | initTickTimer (o c : Nat)
  | initHardware (p o c : Nat)
  | boot (p o c : Nat)
  | pollTick
  | readRow (r : Nat)
  | sendCode (c : Nat)
  | setCapsLed (on : Bool)
  | pulseScreenClear
  | pulseSystemReset
deriving DecidableEq, Repr

/-- A line's operands are in their ranges: a value 0..255 and an address 0..15 (R120), a prescaler 0..8 (R129), a compare
target 0..255 and a clock select 0..7 (R130, R39). -/
def Line.wellFormed : Line → Bool
  | .rd r => r.inRange
  | .wr r v => r.inRange && decide (v < 256)
  | .waitClr r mask => r.inRange && decide (mask < 256)
  | .idle _ => true
  | .configureClock p => decide (p ≤ 8)
  | .initTickTimer o c => decide (o < 256) && decide (c < 8)
  | .initHardware p o c | .boot p o c => decide (p ≤ 8) && decide (o < 256) && decide (c < 8)
  | .pollTick => true
  | .readRow r => decide (r < 256)
  | .sendCode c => decide (c < 256)
  | .setCapsLed _ | .pulseScreenClear | .pulseSystemReset => true

/-- What the host does with one hclk edge. -/
inductive HostOp where
  /-- A read of the register (R120). -/
  | read (a : RegAddr)
  /-- A write of the register (R120). -/
  | write (a : RegAddr) (v : Byte)
  /-- A read, repeated until it returns a value with every bit of the mask clear (R121). -/
  | waitClr (a : RegAddr) (mask : Byte)
  /-- No transaction (R122). -/
  | idle
deriving DecidableEq, Repr

/-- `WR r, v`. -/
def wrOp (r : RegRef) (v : Nat) : HostOp := .write r.addr (BitVec.ofNat 8 v)

/-- `configure_clock(p)` (R129). -/
def configureClockOps (p : Nat) : List HostOp := [wrOp .clkpr 0x80, wrOp .clkpr p]

/-- `init_tick_timer(o, c)` (R130). -/
def initTickTimerOps (o c : Nat) : List HostOp :=
  [wrOp .ocra o, wrOp .tcfgA 0x02, wrOp .tcfgB c, wrOp .tcfgImsk 0x02]

/-- `init_hardware()` (R131). -/
def initHardwareOps (p o c : Nat) : List HostOp :=
  wrOp .pincfg 0x0F :: (configureClockOps p ++ initTickTimerOps o c)

/-- The operations a line expands to. -/
def Line.expand : Line → List HostOp
  | .rd r => [.read r.addr]
  | .wr r v => [wrOp r v]
  | .waitClr r mask => [.waitClr r.addr (BitVec.ofNat 8 mask)]
  | .idle n => List.replicate n .idle
  | .configureClock p => configureClockOps p
  | .initTickTimer o c => initTickTimerOps o c
  | .initHardware p o c => initHardwareOps p o c
  | .boot p o c => [.idle, .idle] ++ initHardwareOps p o c
  | .pollTick => [.read RegRef.tick.addr]
  | .readRow r => [wrOp .rowScan r, .waitClr RegRef.status.addr 0x04, .read RegRef.colData.addr]
  | .sendCode c => [wrOp .txData c, .waitClr RegRef.status.addr 0x08]
  | .setCapsLed on => [wrOp .led (if on then 1 else 0)]
  | .pulseScreenClear => [wrOp .pulse 0x01, .waitClr RegRef.status.addr 0x10]
  | .pulseSystemReset => [wrOp .pulse 0x02, .waitClr RegRef.status.addr 0x20]

/-- The operations of a program. -/
def expandProgram (ls : List Line) : List HostOp := ls.flatMap Line.expand

/-- The `Host` agent (R8): what it has still to do, and the values its reads returned, the latest first. -/
structure HostAgent where
  todo : List HostOp
  reads : List Byte
deriving DecidableEq, Repr

/-- The host at the start of a program. -/
def HostAgent.start (ls : List Line) : HostAgent where
  todo := expandProgram ls
  reads := []

/-- The bus the host drives for the next hclk edge (R83, R120 to R122). -/
def HostAgent.bus (h : HostAgent) : BusPins :=
  match h.todo with
  | [] => .idle
  | .idle :: _ => .idle
  | .read a :: _ => busOf (wordOf false a 0)
  | .waitClr a _ :: _ => busOf (wordOf false a 0)
  | .write a v :: _ => busOf (wordOf true a v)

/-- The host after an hclk edge at which its bus received `v`. -/
def HostAgent.after (h : HostAgent) (v : Byte) : HostAgent :=
  match h.todo with
  | [] => h
  | .idle :: rest => { h with todo := rest }
  | .write _ _ :: rest => { h with todo := rest }
  | .read _ :: rest => { todo := rest, reads := v :: h.reads }
  | .waitClr _ mask :: rest =>
    { todo := if v &&& mask = 0 then rest else h.todo, reads := v :: h.reads }

/-- Is a compare target and a division right for the tick rate: `(o + 1) * N * 2^CLKPS * TICK_RATE_HZ = F_SRC`
(R130, 41_timer.md R174)? -/
def exactTick (p : Params) (clkps : BitVec 4) (o : Byte) (cs : BitVec 3) : Bool :=
  (o.toNat + 1) * csDivision cs * clkDivision clkps * Config.tickRateHz == p.fSrc

end Sys2Proof.Machine
end

