-- ==== Sys2Proof/Machine/System.lean ====
section
/-! DEFINITION. The block together with a host that runs a program and the reference environment: the setting of the
programs of 95_test_vectors.md. Every step of the block in it is a `step`. -/

namespace Sys2Proof.Machine

/-- The five agents of R8: the block (with `Reset` among its steps), the host and the environment. -/
structure System where
  block : State
  host : HostAgent
  env : RefEnv
deriving DecidableEq, Repr

/-- What the system leaves free at a step: which agent moves, its draws, and what the environment does with its keys
between hclk edges (R16, R80, R248). -/
inductive Move where
  | hclk (colDraws : Byte) (tickDraw ackDraw : Bool)
  | tclk (reqDraw : Bool)
  | reset
  | key (row col : Nat) (down : Bool)
deriving DecidableEq, Repr

/-- The block's inputs at an hclk edge: the host's bus and the environment's sample. -/
def System.hclkInput (y : System) (colDraws : Byte) (tickDraw ackDraw : Bool) : StepInput where
  edge := .hclk
  bus := y.host.bus
  colIn := y.env.sample y.block colDraws
  tickDraw := tickDraw
  ackDraw := ackDraw
  reqDraw := false

/-- The system after an hclk edge that took the block from `s` to `t`. -/
def System.afterHclk (y : System) (s t : State) : System where
  block := t
  host := y.host.after t.rdata
  env := y.env.tickMoves.seesRow s t

/-- One step of the system. DESIGN CHOICE (log entry 20, unsafe): the spec does not say what a host does with its program
when a reset comes in the middle of it; here the host keeps what it has still to do and what it has read, and goes on at
the next hclk edge, with no wait of two edges put in (70_reset_and_hazards.md R351, R355). -/
def System.step (y : System) : Move → Host.Outcome System Fault Refusal
  | .hclk colDraws tickDraw ackDraw =>
    let s := y.block.withInput (y.hclkInput colDraws tickDraw ackDraw)
    match Sys2Proof.Machine.step s with
    | .next t => .next (y.afterHclk s t)
    | .fault r => .fault r
    | .refused r => .refused r
  | .tclk reqDraw =>
    match Sys2Proof.Machine.step (y.block.withInput { StepInput.quiet with edge := .tclk, reqDraw := reqDraw }) with
    | .next t => .next { y with block := t }
    | .fault r => .fault r
    | .refused r => .refused r
  | .reset =>
    match Sys2Proof.Machine.step (y.block.withInput { StepInput.quiet with edge := .reset }) with
    | .next t => .next { y with block := t, env := y.env.seesRow y.block t }
    | .fault r => .fault r
    | .refused r => .refused r
  | .key row col down => .next { y with env := y.env.setKey y.block row col down }

/-- Several moves, stopping at the first stop. -/
def System.run (y : System) : List Move → Host.Outcome System Fault Refusal
  | [] => .next y
  | m :: rest =>
    match y.step m with
    | .next z => z.run rest
    | .fault r => .fault r
    | .refused r => .refused r

end Sys2Proof.Machine
end

