-- ==== Sys2Proof/Safety.lean ====
section
/-! DEFINITION. Runs of the block, and what holds in a safe one: the invariants of 10_state.md R60, and the order of the
configuration handshake on which 41_timer.md R168, R175 and R176 rest. -/

namespace Sys2Proof.Machine

/-! ### Runs -/

/-- The run that takes the listed inputs, one a step (20_memory.md R80, R81); it ends early at a stop. -/
def runInputs : List StepInput → State → Host.Outcome State Fault Refusal
  | [], s => .next s
  | i :: rest, s =>
    match step (s.withInput i) with
    | .next t => runInputs rest t
    | .fault r => .fault r
    | .refused r => .refused r

/-- `s` is reached from the reset of a block built with `p`. -/
def Reached (p : Params) (s : State) : Prop := ∃ is, runInputs is (State.resetWith p) = .next s

/-- The inputs of the hclk edges. -/
def hclkInputs (is : List StepInput) : List StepInput := is.filter (fun i => i.edge = .hclk)

/-- The inputs of the tclk edges. -/
def tclkInputs (is : List StepInput) : List StepInput := is.filter (fun i => i.edge = .tclk)

/-- No reset among the inputs. -/
abbrev NoReset (is : List StepInput) : Prop := ∀ i ∈ is, i.edge ≠ .reset

/-- The transaction of an hclk edge with these inputs, if there is one (R83). -/
def transactionOf (i : StepInput) : Option Instr :=
  match busWord i.bus with
  | none => none
  | some w => (decode w).toOption

/-! ### The invariants of R60 -/

abbrev ScanIdleInv (s : State) : Prop := s.scan.scanBusy = false → s.scan.scanCnt = 0#8

abbrev TxIdleInv (s : State) : Prop := s.tx.txState = .idle → s.tx.strobe = false ∧ s.tx.txCnt = 0#16

abbrev ClrIdleInv (s : State) : Prop := s.gpio.clrAct = false → s.gpio.clrCnt = 0#16

abbrev RstIdleInv (s : State) : Prop := s.gpio.rstAct = false → s.gpio.rstCnt = 0#16

abbrev LockInv (s : State) : Prop := s.clock.clkLock = true → s.clock.clkWin = 0#3

abbrev PendInv (s : State) : Prop := s.config.cfgPend = true → s.config.cfgBusy = true

abbrev CountInv (s : State) : Prop := running s.timer = true → s.timer.tcnt.toNat ≤ s.timer.tOcra.toNat

/-- `row_oh_n` is all ones before any row is selected; after that it has its one zero at `row_sel`. -/
abbrev RowInv (s : State) : Prop :=
  (s.scan.rowValid = false → ∀ k < 16, s.scan.rowOhN.getLsbD k = decide (k < s.params.numRows)) ∧
  (s.scan.rowValid = true → s.scan.rowSel.toNat < s.params.numRows ∧
    ∀ k < 16, s.scan.rowOhN.getLsbD k = decide (k < s.params.numRows ∧ k ≠ s.scan.rowSel.toNat))

abbrev ColInv (s : State) : Prop := ∀ k < 8, s.params.numCols ≤ k → s.scan.colData.getLsbD k = false

/-- The nine invariants that R60 lists. -/
abbrev StateInvariants (s : State) : Prop :=
  ScanIdleInv s ∧ TxIdleInv s ∧ ClrIdleInv s ∧ RstIdleInv s ∧ LockInv s ∧ PendInv s ∧ CountInv s ∧ RowInv s ∧ ColInv s

/-- The transmitter's outputs in its other states, which R263 to R265 keep beside R60's clause for IDLE. -/
abbrev TxPhaseInv (s : State) : Prop :=
  (s.tx.txState = .setup → s.tx.strobe = false ∧ s.tx.txCnt = 0#16) ∧
  (s.tx.txState = .active → s.tx.strobe = true ∧ s.tx.txCnt.toNat < s.params.strobeCycles) ∧
  (s.tx.txState = .hold → s.tx.strobe = false ∧ s.tx.txCnt = 0#16)

/-! ### The configuration handshake -/

/-- The request on its way: `req_tgl` through the tclk flops to `req_s3`, then the acknowledge through the hclk flops
(R168, R169). -/
def handshakeChain (s : State) : List Bool :=
  [s.config.reqTgl, s.timer.reqS1, s.timer.reqS2, s.timer.reqS3, s.config.ackS1, s.config.ackS2, s.config.ackS3]

/-- How many neighbours in a chain differ. -/
def chainChanges : List Bool → Nat
  | a :: b :: rest => (if a = b then 0 else 1) + chainChanges (b :: rest)
  | _ => 0

/-- At most one request is under way, one exactly while CFG_BUSY is 1; a change bit is set only while its first flop
still holds the old value; the acknowledge toggle follows `req_s3`. -/
abbrev HandshakeOrder (s : State) : Prop :=
  chainChanges (handshakeChain s) = s.config.cfgBusy.toNat ∧
  s.timer.ackTgl = s.timer.reqS3 ∧
  (s.chg.reqChg = true → s.config.reqTgl ≠ s.timer.reqS1) ∧
  (s.chg.ackChg = true → s.timer.ackTgl ≠ s.config.ackS1) ∧
  PendInv s

/-- The timer part (cs, wgm, ocra) of the committed word. -/
def committedTimer (c : ConfigPart) : BitVec 3 × BitVec 3 × Byte := (csOf c.tcfgB, wgmOf c.tcfgB c.tcfgA, c.ocra)

/-- The timer part in flight to tclk. -/
def transferredTimer (c : ConfigPart) : BitVec 3 × BitVec 3 × Byte := (c.xferCs, c.xferWgm, c.xferOcra)

/-- The timer part in use. -/
def loadedTimer (t : TimerPart) : BitVec 3 × BitVec 3 × Byte := (t.tCs, t.tWgm, t.tOcra)

/-- With no commit waiting, the value in flight is the committed one; with no request unloaded, the timer uses the value
in flight. -/
abbrev TransferCoherent (s : State) : Prop :=
  (s.config.cfgPend = false → transferredTimer s.config = committedTimer s.config) ∧
  (s.config.reqTgl = s.timer.ackTgl → loadedTimer s.timer = transferredTimer s.config)

/-- Everything that every step keeps. -/
abbrev BlockInv (s : State) : Prop :=
  s.params.Legal ∧ StateInvariants s ∧ TxPhaseInv s ∧ HandshakeOrder s ∧ TransferCoherent s

/-! ### The tick crossing -/

/-- Changes of `tick_tgl` that have not yet made their pulse (42_tick_flag.md R201, R202). -/
def ticksInFlight (s : State) : Nat :=
  chainChanges [s.timer.tickTgl, s.tick.tickS1, s.tick.tickS2, s.tick.tickS3]

/-- Is the next tclk edge a tick event (R172)? -/
def tickEvent (s : State) : Bool := (loadOrCount s).2

/-! ### Polls and pulses along a run (42_tick_flag.md R213) -/

/-- Is the step with these inputs a poll (R205)? -/
def pollAt (i : StepInput) : Bool := decide (i.edge = .hclk) && decide (transactionOf i = some .rdTick)

/-- Is the step with these inputs from `s` a pulse edge (R202)? -/
def pulseAt (i : StepInput) (s : State) : Bool := decide (i.edge = .hclk) && tickPulse s.tick

/-- Over the steps of a run, how many have `f` of their inputs, their start and their end. -/
def countSteps (f : StepInput → State → State → Bool) : List StepInput → State → Nat
  | [], _ => 0
  | i :: rest, s =>
    match step (s.withInput i) with
    | .next t => (f i s t).toNat + countSteps f rest t
    | .fault _ => 0
    | .refused _ => 0

/-- Is the step with these inputs from `s` a write of CLKPR that sets CLKPS and LOCK: a change pattern with CLKPS 0 to 8
at an hclk edge, inside the window of an unlocked register (40_clock_prescaler.md R141, R142)? -/
def configuresAt (i : StepInput) (s : State) : Bool :=
  match transactionOf i with
  | some (.wrClkpr d) =>
    decide (i.edge = .hclk) && !s.clock.clkLock && decide (s.clock.clkWin ≠ 0#3) && !d.getLsbD 7 &&
      decide (d.extractLsb' 4 3 = 0#3) && decide ((d.extractLsb' 0 4).toNat ≤ 8)
  | _ => false

/-- The accepted change writes of CLKPR in a run. -/
def configurations : List StepInput → State → Nat := countSteps (fun i s _ => configuresAt i s)

/-- The tick events of a run (R172). -/
def tickEvents : List StepInput → State → Nat :=
  countSteps (fun i s _ => decide (i.edge = .tclk) && tickEvent s)

/-- The polls of a run that return 1. -/
def pollsReturningOne : List StepInput → State → Nat := countSteps (fun i _ t => pollAt i && t.rdata == 0x01)

/-- The pulse edges of a run. -/
def pulseEdges : List StepInput → State → Nat := countSteps (fun i s _ => pulseAt i s)

/-- Does a poll follow each pulse edge no later than at the next one? `waiting` says that a pulse has had no poll yet. -/
def polledInTime (waiting : Bool) : List StepInput → State → Bool
  | [], _ => true
  | i :: rest, s =>
    match step (s.withInput i) with
    | .next t =>
      !(waiting && pulseAt i s && !pollAt i) && polledInTime (pulseAt i s || (waiting && !pollAt i)) rest t
    | .fault _ => true
    | .refused _ => true

end Sys2Proof.Machine
end

