-- ==== Sys2Proof/WellFormed.lean ====
section
/-! DEFINITION. Which transactions are well formed, and which of them keep the spec's advice to software. -/

namespace Sys2Proof

/-- Every transaction is well formed: an operand is a byte by its type, and there are no illegal encodings (R112,
R114, R118). -/
def Instr.wellFormed (_ : Instr) : Bool := true

/-- Does the transaction leave the reserved addresses 0xD to 0xF alone (R116)? -/
def Instr.avoidsReservedAddress (i : Instr) : Bool := i.addr.toNat < 0xD

/-- The reserved bits of a writable register (R35, R39, R40, R46, R47, R114). -/
def reservedBits : Instr → Byte
  | .wrClkpr _ => 0x30
  | .wrTcfgB _ | .wrTcfgImsk _ | .wrPincfg _ => 0xF0
  | .wrLed _ => 0xFE
  | .wrPulse _ => 0xFC
  | .wrOcra _ | .wrTcfgA _ | .wrRowScan _ | .wrTxData _ => 0x00
  | .wrTick _ | .wrStatus _ | .wrColData _ | .wrRsvdD _ | .wrRsvdE _ | .wrRsvdF _ => 0x00
  | .rdClkpr | .rdOcra | .rdTcfgA | .rdTcfgB | .rdTcfgImsk | .rdTick | .rdStatus | .rdRowScan => 0x00
  | .rdColData | .rdTxData | .rdLed | .rdPulse | .rdPincfg | .rdRsvdD | .rdRsvdE | .rdRsvdF => 0x00

/-- Does the transaction write 0 to the reserved bits of its register (R316)? The block does not check it. -/
def Instr.writesZeroToReserved (i : Instr) : Bool := (i.data &&& reservedBits i) == 0

end Sys2Proof
end

