-- ==== Sys2Proof/Certificates/Slice0/Obligations.lean ====
section
/-! DEFINITION. The statements for the provers. -/

open Sys2Proof Sys2Proof.Machine

/-! ### Encoding (30_encoding.md) -/

/-- Decoding the canonical word of a transaction gives it back, and a decoded word agrees with the transaction in W and
A, and in D for a write (R110, R111, R113). -/
def Obligations.DecodeEncodeAgree : Prop :=
  (∀ i : Instr, decode (encode i) = .ok i) ∧
  ∀ (w : TxWord) (i : Instr), decode w = .ok i →
    i.isWrite = w.getLsbD 12 ∧ i.addr = w.extractLsb' 8 4 ∧
    i.data = if w.getLsbD 12 then w.extractLsb' 0 8 else 0#8

/-- R112: each of the 8192 words selects exactly one of the 32 rows, by W and A alone, and decodes. -/
def Obligations.EveryWordSelectsOneTransaction : Prop :=
  opcodeRows.length = 32 ∧ (opcodeRows.map (·.mnemonic)).Nodup ∧
  ∀ w : TxWord,
    (opcodeRows.filter (fun r => r.selects w)).length = 1 ∧
    (∃ i, decode w = .ok i) ∧
    ∀ v : TxWord, v.extractLsb' 8 5 = w.extractLsb' 8 5 →
      opcodeRows.filter (fun r => r.selects v) = opcodeRows.filter (fun r => r.selects w)

/-- R111: a read's D selects nothing, and the canonical spelling of a read has D = 0. -/
def Obligations.ReadWordsIgnoreData : Prop :=
  (∀ (a : RegAddr) (d d' : Byte), decode (wordOf false a d) = decode (wordOf false a d')) ∧
  (∀ i : Instr, i.isWrite = false → (encode i).extractLsb' 0 8 = 0#8) ∧
  encode .rdTick = 0x0500

/-- A word of each family decodes to the transaction that R113 and 95_test_vectors.md give it. -/
def Obligations.SampleWordsDecode : Prop :=
  decode 0x1080 = .ok (.wrClkpr 0x80) ∧ decode 0x117C = .ok (.wrOcra 124) ∧ decode 0x1402 = .ok (.wrTcfgImsk 2) ∧
  decode 0x05FF = .ok .rdTick ∧ decode 0x0600 = .ok .rdStatus ∧ decode 0x1701 = .ok (.wrRowScan 1) ∧
  decode 0x19A5 = .ok (.wrTxData 0xA5) ∧ decode 0x1A5C = .ok (.wrLed 0x5C) ∧ decode 0x1C0F = .ok (.wrPincfg 0x0F) ∧
  decode 0x0D00 = .ok .rdRsvdD ∧ decode 0x1F00 = .ok (.wrRsvdF 0)

/-! ### The step (20_memory.md, 00_scope.md) -/

/-- Where the bus of an hclk edge carries a word that decodes to `i`, the step is `exec i` and then the taking of the
next inputs; with no transaction it is the edge by itself. -/
def Obligations.StepRunsDecodedTransaction : Prop :=
  ∀ s : State, s.params.Legal → s.input.edge = .hclk →
    (∀ w i, busWord s.input.bus = some w → decode w = .ok i → i.wellFormed = true →
      step s = mapNext nextInput (exec i s)) ∧
    (busWord s.input.bus = none → step s = .next (nextInput (hclkEdge s)))

/-- R83: what transaction the bus pins present, and that it always completes. -/
def Obligations.BusPinsPresentOneTransaction : Prop :=
  ∀ s : State, s.params.Legal → s.input.edge = .hclk →
    (s.input.bus.wr = true → busRdata s = 0#8 ∧
      ∃ i, i.isWrite = true ∧ i.addr = s.input.bus.addr ∧ i.data = s.input.bus.wdata ∧
        step s = mapNext nextInput (exec i s)) ∧
    (s.input.bus.wr = false → s.input.bus.rd = true →
      ∃ i, i.isWrite = false ∧ i.addr = s.input.bus.addr ∧ step s = mapNext nextInput (exec i s)) ∧
    (s.input.bus.wr = false → s.input.bus.rd = false → busRdata s = 0#8 ∧ step s = .next (nextInput (hclkEdge s))) ∧
    ∃ t, step s = .next t

/-- R12: a parameter set outside the five constraints has no meaning; the model stops with the `fault` of I20. -/
def Obligations.IllegalParametersFault : Prop :=
  ∀ s : State,
    ¬ (s.params.numRows ≤ 16 ∧ s.params.numCols ≤ 8 ∧ 2 ≤ s.params.settleCycles ∧ 1 ≤ s.params.strobeCycles ∧
        s.params.strobeCycles ≤ s.params.pulseCycles) →
      step s = .fault .illegalParameters

/-- A block with legal parameters never stops, whatever the inputs, and its parameters never change (R9, R320). -/
def Obligations.LegalBlockNeverStops : Prop :=
  ∀ (is : List StepInput) (s : State), s.params.Legal → ∃ t, runInputs is s = .next t ∧ t.params = s.params

/-- What the host receives at an hclk edge is `bus_rdata` of the cycle before it (R84); no other edge changes it. -/
def Obligations.HostReceivesBusRdata : Prop :=
  ∀ s t : State, step s = .next t →
    (s.input.edge = .hclk → t.rdata = busRdata s) ∧ (s.input.edge = .tclk → t.rdata = s.rdata)

/-- An hclk edge leaves every tclk element as it was, a tclk edge every hclk element (R33, R81); the change bits are the
exception that R81 names. -/
def Obligations.EdgesKeepTheOtherDomain : Prop :=
  ∀ s t : State, step s = .next t →
    (s.input.edge = .hclk → t.timer = s.timer) ∧
    (s.input.edge = .tclk →
      t.clock = s.clock ∧ t.config = s.config ∧ t.tick = s.tick ∧ t.scan = s.scan ∧ t.tx = s.tx ∧ t.gpio = s.gpio)

/-! ### What each transaction does at its edge, over what the edge does by itself -/

/-- RD_CLKPR completes with CLKPCE, LOCK and CLKPS, and no side effect (R140). -/
def Obligations.ClkprReadCompletes : Prop :=
  ∀ s : State, exec .rdClkpr s = .next { hclkEdge s with
    rdata := BitVec.ofBool (decide (s.clock.clkWin ≠ 0#3)) ++ BitVec.ofBool s.clock.clkLock ++ 0#2 ++ s.clock.clkps }

/-- RD_OCRA, RD_TCFG_A, RD_TCFG_B and RD_TCFG_IMSK complete with the committed bytes and no side effect (R160, R162,
R164, R166). -/
def Obligations.TimerReadsComplete : Prop :=
  ∀ s : State,
    exec .rdOcra s = .next { hclkEdge s with rdata := s.config.ocra } ∧
    exec .rdTcfgA s = .next { hclkEdge s with rdata := s.config.tcfgA } ∧
    exec .rdTcfgB s = .next { hclkEdge s with rdata := 0#4 ++ s.config.tcfgB } ∧
    exec .rdTcfgImsk s = .next { hclkEdge s with rdata := 0#4 ++ s.config.tcfgImsk }

/-- RD_STATUS completes with the flags of R42 bit by bit and changes nothing else (R209). -/
def Obligations.StatusReadCompletes : Prop :=
  ∀ s : State, ∃ t, exec .rdStatus s = .next t ∧ t = { hclkEdge s with rdata := t.rdata } ∧
    t.rdata.getLsbD 7 = false ∧ t.rdata.getLsbD 6 = false ∧
    t.rdata.getLsbD 5 = s.gpio.rstAct ∧ t.rdata.getLsbD 4 = s.gpio.clrAct ∧
    t.rdata.getLsbD 3 = decide (s.tx.txState ≠ .idle) ∧ t.rdata.getLsbD 2 = s.scan.scanBusy ∧
    t.rdata.getLsbD 1 = s.config.cfgBusy ∧ t.rdata.getLsbD 0 = s.tick.tickPend

/-- RD_ROW_SCAN, RD_COL_DATA, RD_TX_DATA, RD_LED, RD_PULSE, RD_PINCFG and the reads of 0xD, 0xE and 0xF complete with
their values and no side effect (R231, R239, R262, R281, R283, R287, R310, R312, R314). -/
def Obligations.PlainReadsComplete : Prop :=
  ∀ s : State,
    exec .rdRowScan s = .next { hclkEdge s with rdata := BitVec.ofBool s.scan.rowValid ++ 0#3 ++ s.scan.rowSel } ∧
    exec .rdColData s = .next { hclkEdge s with rdata := s.scan.colData } ∧
    exec .rdTxData s = .next { hclkEdge s with rdata := s.tx.txData } ∧
    exec .rdLed s = .next { hclkEdge s with rdata := 0#7 ++ BitVec.ofBool s.gpio.caps } ∧
    exec .rdPulse s = .next { hclkEdge s with
      rdata := 0#6 ++ BitVec.ofBool s.gpio.rstAct ++ BitVec.ofBool s.gpio.clrAct } ∧
    exec .rdPincfg s = .next { hclkEdge s with rdata := 0#4 ++ s.gpio.pincfg } ∧
    exec .rdRsvdD s = .next { hclkEdge s with rdata := 0#8 } ∧
    exec .rdRsvdE s = .next { hclkEdge s with rdata := 0#8 } ∧
    exec .rdRsvdF s = .next { hclkEdge s with rdata := 0#8 }

/-- RD_TICK completes with the flag as before the edge, and leaves it 1 only if it is set at that edge; nothing else
differs from an edge with no transaction (R205, R207). -/
def Obligations.PollReturnsAndClearsTick : Prop :=
  ∀ s : State, ∃ t, exec .rdTick s = .next t ∧
    t.rdata = 0#7 ++ BitVec.ofBool s.tick.tickPend ∧
    t.tick.tickPend = ((s.tick.tickS2 != s.tick.tickS3) && s.config.tcfgImsk.getLsbD 1) ∧
    t = { hclkEdge s with rdata := t.rdata, tick := { (hclkEdge s).tick with tickPend := t.tick.tickPend } }

/-- The ignored writes complete as an edge with no transaction (R208, R210, R240, R311, R313, R315). -/
def Obligations.IgnoredWritesChangeNothing : Prop :=
  ∀ (d : Byte) (s : State),
    exec (.wrTick d) s = .next (hclkEdge s) ∧ exec (.wrStatus d) s = .next (hclkEdge s) ∧
    exec (.wrColData d) s = .next (hclkEdge s) ∧ exec (.wrRsvdD d) s = .next (hclkEdge s) ∧
    exec (.wrRsvdE d) s = .next (hclkEdge s) ∧ exec (.wrRsvdF d) s = .next (hclkEdge s)

/-- WR_OCRA, WR_TCFG_A and WR_TCFG_B complete with their staging byte written and nothing else, byte B without its bits
7:4 (R161, R163, R165). -/
def Obligations.StagingWritesStoreOneByte : Prop :=
  ∀ (d : Byte) (s : State),
    exec (.wrOcra d) s = .next { hclkEdge s with config := { (hclkEdge s).config with stgOcra := d } } ∧
    exec (.wrTcfgA d) s = .next { hclkEdge s with config := { (hclkEdge s).config with stgA := d } } ∧
    exec (.wrTcfgB d) s = .next { hclkEdge s with config := { (hclkEdge s).config with stgB := 0#4 ++ d.extractLsb' 0 4 } }

/-- WR_TCFG_IMSK completes with all four bytes committed at its edge, the staging kept, CFG_BUSY 1, TICK cleared unless
it is set at that edge, and no other part of the block different from an edge with no transaction (R167). -/
def Obligations.CommitWritesWholeWord : Prop :=
  ∀ (d : Byte) (s : State), ∃ t, exec (.wrTcfgImsk d) s = .next t ∧
    t.config.ocra = s.config.stgOcra ∧ t.config.tcfgA = s.config.stgA ∧
    t.config.tcfgB = s.config.stgB.extractLsb' 0 4 ∧ t.config.tcfgImsk = d.extractLsb' 0 4 ∧
    t.config.stgOcra = s.config.stgOcra ∧ t.config.stgA = s.config.stgA ∧ t.config.stgB = s.config.stgB ∧
    t.config.cfgBusy = true ∧
    t.tick.tickPend = ((s.tick.tickS2 != s.tick.tickS3) && s.config.tcfgImsk.getLsbD 1) ∧
    t = { hclkEdge s with
      config := t.config
      tick := { (hclkEdge s).tick with tickPend := t.tick.tickPend }
      chg := { (hclkEdge s).chg with reqChg := t.chg.reqChg } }

/-- WR_CLKPR completes by the three branches of R141: opened, accepted or refused with the window closed, and otherwise
counted down (R141 to R144). -/
def Obligations.ClkprWriteFollowsProtocol : Prop :=
  ∀ (d : Byte) (s : State), exec (.wrClkpr d) s = .next { hclkEdge s with
    clock :=
      if s.clock.clkLock = false ∧ s.clock.clkWin = 0#3 ∧ d = 0x80#8 then { s.clock with clkWin := 4#3 }
      else if s.clock.clkLock = false ∧ s.clock.clkWin ≠ 0#3 ∧ d.getLsbD 7 = false ∧ d.extractLsb' 4 3 = 0#3 then
        if (d.extractLsb' 0 4).toNat ≤ 8 then { clkps := d.extractLsb' 0 4, clkLock := true, clkWin := 0#3 }
        else { s.clock with clkWin := 0#3 }
      else { s.clock with clkWin := if s.clock.clkWin = 0#3 then 0#3 else s.clock.clkWin - 1#3 } }

/-- WR_ROW_SCAN completes: while idle a row in range is driven and its settling count starts, and a row out of range sets
COL_DATA to 0 with nothing else changed; while busy it is an edge with no transaction (R232 to R234). -/
def Obligations.ScanCommandStartsClearsOrIsIgnored : Prop :=
  ∀ (d : Byte) (s : State),
    (s.scan.scanBusy = true → exec (.wrRowScan d) s = .next (hclkEdge s)) ∧
    (s.scan.scanBusy = false → d.toNat < s.params.numRows →
      exec (.wrRowScan d) s = .next { hclkEdge s with
        scan := { s.scan with
          rowSel := d.extractLsb' 0 4
          rowValid := true
          rowOhN := BitVec.ofNat 16 (2 ^ s.params.numRows - 1) &&& ~~~(1#16 <<< d.toNat)
          scanCnt := BitVec.ofNat 8 s.params.settleCycles
          scanBusy := true
          colS1 := s.input.colIn
          colS2 := s.scan.colS1 } }) ∧
    (s.scan.scanBusy = false → s.params.numRows ≤ d.toNat →
      exec (.wrRowScan d) s = .next { hclkEdge s with
        scan := { s.scan with colData := 0#8, colS1 := s.input.colIn, colS2 := s.scan.colS1 } })

/-- WR_TX_DATA completes: accepted in IDLE, and otherwise dropped, the transmitter moving on as with no transaction
(R261, R268). -/
def Obligations.TxCommandAcceptedOnlyInIdle : Prop :=
  ∀ (d : Byte) (s : State),
    (s.tx.txState = .idle →
      exec (.wrTxData d) s = .next { hclkEdge s with tx := { s.tx with txData := d, txState := .setup } }) ∧
    (s.tx.txState ≠ .idle → exec (.wrTxData d) s = .next (hclkEdge s))

/-- WR_LED completes with the LED level from D[0] and WR_PINCFG with the enables from D[3:0], nothing else changed (R282,
R288). -/
def Obligations.LedAndPincfgWritesComplete : Prop :=
  ∀ (d : Byte) (s : State),
    exec (.wrLed d) s = .next { hclkEdge s with gpio := { (hclkEdge s).gpio with caps := d.getLsbD 0 } } ∧
    exec (.wrPincfg d) s = .next { hclkEdge s with gpio := { (hclkEdge s).gpio with pincfg := d.extractLsb' 0 4 } }

/-- WR_PULSE completes: a start bit starts its generator if that one was idle; a generator that was running, or whose
start bit is 0, is as with no transaction (R284). -/
def Obligations.PulseWriteStartsIdleGenerators : Prop :=
  ∀ (d : Byte) (s : State), ∃ t, exec (.wrPulse d) s = .next t ∧
    (if d.getLsbD 0 = true ∧ s.gpio.clrAct = false then
        t.gpio.clrAct = true ∧ t.gpio.clrCnt = BitVec.ofNat 16 (s.params.pulseCycles - 1)
      else t.gpio.clrAct = (hclkEdge s).gpio.clrAct ∧ t.gpio.clrCnt = (hclkEdge s).gpio.clrCnt) ∧
    (if d.getLsbD 1 = true ∧ s.gpio.rstAct = false then
        t.gpio.rstAct = true ∧ t.gpio.rstCnt = BitVec.ofNat 16 (s.params.pulseCycles - 1)
      else t.gpio.rstAct = (hclkEdge s).gpio.rstAct ∧ t.gpio.rstCnt = (hclkEdge s).gpio.rstCnt) ∧
    t.gpio.caps = s.gpio.caps ∧ t.gpio.pincfg = s.gpio.pincfg ∧ t = { hclkEdge s with gpio := t.gpio }

/-- The registers that no write reaches, and every read but the poll: a read of any address but 0x5 differs from an edge
with no transaction in the host's data alone (R91). -/
def Obligations.OnlyThePollReadHasASideEffect : Prop :=
  ∀ (i : Instr) (s : State), i.isWrite = false → i ≠ .rdTick →
    exec i s = .next { hclkEdge s with rdata := readValue i.addr s }

/-! ### What every hclk edge does, with any transaction or none -/

/-- An edge without a write of CLKPR keeps CLKPS and LOCK and counts the window down to 0 (R144). -/
def Obligations.PrescalerWindowCountsDown : Prop :=
  ∀ s t : State, s.input.edge = .hclk → step s = .next t → (∀ d, transactionOf s.input ≠ some (.wrClkpr d)) →
    t.clock.clkps = s.clock.clkps ∧ t.clock.clkLock = s.clock.clkLock ∧
    t.clock.clkWin.toNat = s.clock.clkWin.toNat - 1

/-- R145: once LOCK is 1 it and CLKPS stay until reset; while LOCK is 0 CLKPS is CLKPS_RESET, resets included; a block
never configured, whatever writes of CLKPR were refused, keeps CLKPS_RESET and LOCK = 0. -/
def Obligations.LockIsPermanentUntilReset : Prop :=
  (∀ (is : List StepInput) (s t : State), NoReset is → runInputs is s = .next t → s.clock.clkLock = true →
    t.clock.clkLock = true ∧ t.clock.clkps = s.clock.clkps) ∧
  ∀ (p : Params) (is : List StepInput) (t : State), runInputs is (State.resetWith p) = .next t →
    (t.clock.clkLock = false → t.clock.clkps = BitVec.ofNat 4 p.clkpsReset) ∧
    (configurations is (State.resetWith p) = 0 →
      t.clock.clkLock = false ∧ t.clock.clkps = BitVec.ofNat 4 p.clkpsReset)

/-- R206: the whole update of `tick_pend` at an hclk edge; a tclk edge leaves it. `set` is R202's; no edge is both a poll
and a commit. -/
def Obligations.TickFlagUpdate : Prop :=
  ∀ (s t : State) (poll commit : Bool), step s = .next t →
    (poll = true ↔ transactionOf s.input = some .rdTick) →
    (commit = true ↔ ∃ d, transactionOf s.input = some (.wrTcfgImsk d)) →
    let set := (s.tick.tickS2 != s.tick.tickS3) && s.config.tcfgImsk.getLsbD 1
    ¬ (poll = true ∧ commit = true) ∧
    (s.input.edge = .hclk → t.tick.tickPend = (set || (s.tick.tickPend && !(poll || commit)))) ∧
    (s.input.edge = .tclk → t.tick.tickPend = s.tick.tickPend)

/-- R201: the synchronizer chain of the tick at every hclk edge; a tclk edge leaves it. -/
def Obligations.TickSynchronizerChain : Prop :=
  ∀ s t : State, step s = .next t →
    (s.input.edge = .hclk →
      t.tick.tickS1 = (if s.chg.tickChg then s.input.tickDraw else s.timer.tickTgl) ∧ t.chg.tickChg = false ∧
      t.tick.tickS2 = s.tick.tickS1 ∧ t.tick.tickS3 = s.tick.tickS2) ∧
    (s.input.edge = .tclk →
      t.tick.tickS1 = s.tick.tickS1 ∧ t.tick.tickS2 = s.tick.tickS2 ∧ t.tick.tickS3 = s.tick.tickS3)

/-- R168: the hclk side of the configuration handshake, with `cur` read from the committed word just after the edge. -/
def Obligations.HandshakeHclkSide : Prop :=
  ∀ (s t : State) (commit : Bool), s.input.edge = .hclk → step s = .next t →
    (commit = true ↔ ∃ d, transactionOf s.input = some (.wrTcfgImsk d)) →
    let ack := s.config.ackS2 != s.config.ackS3
    let launch := (commit && !s.config.cfgBusy) || (s.config.cfgBusy && ack && (s.config.cfgPend || commit))
    let cur : BitVec 3 × BitVec 3 × Byte :=
      if commit then
        (s.config.stgB.extractLsb' 0 3, BitVec.ofBool (s.config.stgB.getLsbD 3) ++ s.config.stgA.extractLsb' 0 2,
          s.config.stgOcra)
      else
        (s.config.tcfgB.extractLsb' 0 3, BitVec.ofBool (s.config.tcfgB.getLsbD 3) ++ s.config.tcfgA.extractLsb' 0 2,
          s.config.ocra)
    t.config.ackS1 = (if s.chg.ackChg then s.input.ackDraw else s.timer.ackTgl) ∧ t.chg.ackChg = false ∧
    t.config.ackS2 = s.config.ackS1 ∧ t.config.ackS3 = s.config.ackS2 ∧
    (t.config.xferCs, t.config.xferWgm, t.config.xferOcra) =
      (if launch then cur else (s.config.xferCs, s.config.xferWgm, s.config.xferOcra)) ∧
    t.config.reqTgl = (if launch then !s.config.reqTgl else s.config.reqTgl) ∧
    t.chg.reqChg = (launch || s.chg.reqChg) ∧
    t.config.cfgBusy = (launch || (s.config.cfgBusy && !ack)) ∧
    t.config.cfgPend = (!launch && (s.config.cfgPend || (s.config.cfgBusy && !ack && commit)))

/-- Only the commit changes the committed word, and only its own write a staging byte (R160 to R167). -/
def Obligations.OnlyCommitChangesTheWord : Prop :=
  ∀ s t : State, s.input.edge = .hclk → step s = .next t →
    ((∀ d, transactionOf s.input ≠ some (.wrTcfgImsk d)) →
      t.config.ocra = s.config.ocra ∧ t.config.tcfgA = s.config.tcfgA ∧ t.config.tcfgB = s.config.tcfgB ∧
      t.config.tcfgImsk = s.config.tcfgImsk) ∧
    ((∀ d, transactionOf s.input ≠ some (.wrOcra d)) → t.config.stgOcra = s.config.stgOcra) ∧
    ((∀ d, transactionOf s.input ≠ some (.wrTcfgA d)) → t.config.stgA = s.config.stgA) ∧
    ((∀ d, transactionOf s.input ≠ some (.wrTcfgB d)) → t.config.stgB = s.config.stgB)

/-- R238: the column synchronizer at every hclk edge. -/
def Obligations.ColumnSynchronizerAlwaysRuns : Prop :=
  ∀ s t : State, s.input.edge = .hclk → step s = .next t →
    t.scan.colS1 = s.input.colIn ∧ t.scan.colS2 = s.scan.colS1

/-- R235 and R236: the settling count and the capture, at every hclk edge of a running scan, whatever the transaction. -/
def Obligations.SettlingCountAndCapture : Prop :=
  ∀ s t : State, s.input.edge = .hclk → step s = .next t → s.scan.scanBusy = true →
    t.scan.rowSel = s.scan.rowSel ∧ t.scan.rowValid = s.scan.rowValid ∧ t.scan.rowOhN = s.scan.rowOhN ∧
    (s.scan.scanCnt ≠ 0#8 →
      t.scan.scanCnt.toNat = s.scan.scanCnt.toNat - 1 ∧ t.scan.scanBusy = true ∧ t.scan.colData = s.scan.colData) ∧
    (s.scan.scanCnt = 0#8 →
      t.scan.scanBusy = false ∧ t.scan.scanCnt = 0#8 ∧
      ∀ k < 8, t.scan.colData.getLsbD k =
        (decide (k < s.params.numCols) && (s.scan.colS2.getLsbD k != s.params.colActiveLow)))

/-- An idle scanner changes nothing but its synchronizer unless the edge's transaction is a scan command; so the row pins
change at most once a command (R245). -/
def Obligations.IdleScannerHoldsItsRow : Prop :=
  ∀ s t : State, s.input.edge = .hclk → step s = .next t → s.scan.scanBusy = false →
    (∀ d, transactionOf s.input ≠ some (.wrRowScan d)) →
      t.scan = { s.scan with colS1 := t.scan.colS1, colS2 := t.scan.colS2 }

/-- R263 to R265: the transmitter's state machine at every hclk edge, whatever the transaction; in IDLE it holds unless
the transaction writes TX_DATA. -/
def Obligations.TransmitterStateMachine : Prop :=
  ∀ s t : State, s.input.edge = .hclk → step s = .next t →
    (s.tx.txState = .setup →
      t.tx = { s.tx with strobe := true, txCnt := BitVec.ofNat 16 (s.params.strobeCycles - 1), txState := .active }) ∧
    (s.tx.txState = .active → s.tx.txCnt = 0#16 → t.tx = { s.tx with strobe := false, txState := .hold }) ∧
    (s.tx.txState = .active → s.tx.txCnt ≠ 0#16 → t.tx = { s.tx with txCnt := s.tx.txCnt - 1#16 }) ∧
    (s.tx.txState = .hold → t.tx = { s.tx with txState := .idle }) ∧
    (s.tx.txState = .idle → (∀ d, transactionOf s.input ≠ some (.wrTxData d)) → t.tx = s.tx)

/-- R285: the countdown of each running pulse at every hclk edge, whatever the transaction. -/
def Obligations.RunningPulsesCountDown : Prop :=
  ∀ s t : State, s.input.edge = .hclk → step s = .next t →
    (s.gpio.clrAct = true →
      (s.gpio.clrCnt = 0#16 → t.gpio.clrAct = false ∧ t.gpio.clrCnt = 0#16) ∧
      (s.gpio.clrCnt ≠ 0#16 → t.gpio.clrAct = true ∧ t.gpio.clrCnt = s.gpio.clrCnt - 1#16)) ∧
    (s.gpio.rstAct = true →
      (s.gpio.rstCnt = 0#16 → t.gpio.rstAct = false ∧ t.gpio.rstCnt = 0#16) ∧
      (s.gpio.rstCnt ≠ 0#16 → t.gpio.rstAct = true ∧ t.gpio.rstCnt = s.gpio.rstCnt - 1#16))

/-- Only a write of LED changes the LED flop, only a write of PINCFG the enables, and an idle pulse generator stays idle
but for a write of PULSE (R282, R284, R288). A running generator is RunningPulsesCountDown's. -/
def Obligations.LedEnablesAndIdlePulsesChangeOnlyByTheirWrites : Prop :=
  ∀ s t : State, s.input.edge = .hclk → step s = .next t →
    ((∀ d, transactionOf s.input ≠ some (.wrLed d)) → t.gpio.caps = s.gpio.caps) ∧
    ((∀ d, transactionOf s.input ≠ some (.wrPincfg d)) → t.gpio.pincfg = s.gpio.pincfg) ∧
    ((∀ d, transactionOf s.input ≠ some (.wrPulse d)) →
      (s.gpio.clrAct = false → t.gpio.clrAct = false ∧ t.gpio.clrCnt = s.gpio.clrCnt) ∧
      (s.gpio.rstAct = false → t.gpio.rstAct = false ∧ t.gpio.rstCnt = s.gpio.rstCnt))

/-! ### What every tclk edge does -/

/-- R169: the request synchronizer and the load, at every tclk edge. -/
def Obligations.TclkLoadsTransferredConfiguration : Prop :=
  ∀ s t : State, s.input.edge = .tclk → step s = .next t →
    t.timer.reqS1 = (if s.chg.reqChg then s.input.reqDraw else s.config.reqTgl) ∧ t.chg.reqChg = false ∧
    t.timer.reqS2 = s.timer.reqS1 ∧ t.timer.reqS3 = s.timer.reqS2 ∧
    (s.timer.reqS2 ≠ s.timer.reqS3 →
      t.timer.tCs = s.config.xferCs ∧ t.timer.tWgm = s.config.xferWgm ∧ t.timer.tOcra = s.config.xferOcra ∧
      t.timer.psc = 0#10 ∧ t.timer.tcnt = 0#8 ∧ t.timer.tickTgl = s.timer.tickTgl ∧ t.chg.tickChg = s.chg.tickChg ∧
      t.timer.ackTgl = !s.timer.ackTgl ∧ t.chg.ackChg = true) ∧
    (s.timer.reqS2 = s.timer.reqS3 →
      t.timer.tCs = s.timer.tCs ∧ t.timer.tWgm = s.timer.tWgm ∧ t.timer.tOcra = s.timer.tOcra ∧
      t.timer.ackTgl = s.timer.ackTgl ∧ t.chg.ackChg = s.chg.ackChg)

/-- R170 to R172: the run condition, the prescaler and the counter at a tclk edge that is not a load. `n` is the division
of R115. -/
def Obligations.TclkPrescalerAndCounter : Prop :=
  ∀ (s t : State) (n : Nat), s.input.edge = .tclk → step s = .next t → s.timer.reqS2 = s.timer.reqS3 →
    (s.timer.tCs.toNat, n) ∈ [(0, 0), (1, 1), (2, 8), (3, 64), (4, 256), (5, 1024), (6, 0), (7, 0)] →
    (if s.timer.tWgm = 0b010#3 ∧ n ≠ 0 then
        if n - 1 ≤ s.timer.psc.toNat then
          t.timer.psc = 0#10 ∧
          (if s.timer.tcnt = s.timer.tOcra then
              t.timer.tcnt = 0#8 ∧ t.timer.tickTgl = (!s.timer.tickTgl) ∧ t.chg.tickChg = true
            else t.timer.tcnt = s.timer.tcnt + 1#8 ∧ t.timer.tickTgl = s.timer.tickTgl ∧ t.chg.tickChg = s.chg.tickChg)
        else
          t.timer.psc = s.timer.psc + 1#10 ∧ t.timer.tcnt = s.timer.tcnt ∧ t.timer.tickTgl = s.timer.tickTgl ∧
          t.chg.tickChg = s.chg.tickChg
      else
        t.timer.psc = 0#10 ∧ t.timer.tcnt = s.timer.tcnt ∧ t.timer.tickTgl = s.timer.tickTgl ∧
        t.chg.tickChg = s.chg.tickChg)

/-! ### Reset and pins -/

/-- R350: the reset step sets every element to its reset value at once. -/
def Obligations.ResetStepSetsEveryElement : Prop :=
  ∀ s : State, s.params.Legal → s.input.edge = .reset → ∃ t, step s = .next t ∧ t.params = s.params ∧
    t.clock = { clkps := BitVec.ofNat 4 s.params.clkpsReset, clkLock := false, clkWin := 0#3 } ∧
    t.config =
      { stgOcra := 0#8, stgA := 0#8, stgB := 0#8, ocra := 0#8, tcfgA := 0#8, tcfgB := 0#4, tcfgImsk := 0#4, xferCs := 0#3, xferWgm := 0#3,
        xferOcra := 0#8, reqTgl := false, cfgBusy := false, cfgPend := false, ackS1 := false, ackS2 := false,
        ackS3 := false } ∧
    t.tick = { tickS1 := false, tickS2 := false, tickS3 := false, tickPend := false } ∧
    t.scan =
      { rowSel := 0#4, rowValid := false, rowOhN := BitVec.ofNat 16 (2 ^ s.params.numRows - 1), scanBusy := false,
        scanCnt := 0#8, colS1 := 0#8, colS2 := 0#8, colData := 0#8 } ∧
    t.tx = { txData := 0#8, txState := .idle, txCnt := 0#16, strobe := false } ∧
    t.gpio = { caps := false, clrAct := false, clrCnt := 0#16, rstAct := false, rstCnt := 0#16, pincfg := 0#4 } ∧
    t.timer =
      { tCs := 0#3, tWgm := 0#3, tOcra := 0#8, psc := 0#10, tcnt := 0#8, tickTgl := false, reqS1 := false, reqS2 := false,
        reqS3 := false, ackTgl := false } ∧
    t.chg = { tickChg := false, ackChg := false, reqChg := false }

/-- R353: what the host reads from each register right after reset. -/
def Obligations.ResetReadValues : Prop :=
  ∀ (p : Params) (i : Instr), p.Legal → i.isWrite = false →
    ∃ t, exec i (State.resetWith p) = .next t ∧ t.rdata = if i = .rdClkpr then BitVec.ofNat 8 p.clkpsReset else 0#8

/-- R352: the pins after reset, in a cycle with no read. -/
def Obligations.OutputsAfterReset : Prop :=
  ∀ s t : State, s.input.edge = .reset → step s = .next t → t.input.bus.rd = false →
    outputs t =
      { rowAddr := none, rowEn := none, rowN := none, dataOut := none, strobeO := none, capsLedO := none,
        scrClrO := none, sysRstO := none, tickIrq := false, colPuO := false,
        clkSysDivision := 2 ^ s.params.clkpsReset, busRdataO := 0#8 }

/-- The value and the enable of every output pin (R17, R58, R289 to R291); `clk_sys` by its division of `clk_src` (R147,
R148; log entry 9), and `bus_rdata` as what the read on the bus returns, 0 with no read (R84). -/
def Obligations.PinsFollowFlopsAndEnables : Prop :=
  ∀ s : State, ∃ o, o = outputs s ∧
    (s.gpio.pincfg.getLsbD 0 = false → o.rowAddr = none ∧ o.rowEn = none ∧ o.rowN = none) ∧
    (s.gpio.pincfg.getLsbD 0 = true →
      o.rowAddr = some s.scan.rowSel ∧ o.rowEn = some s.scan.rowValid ∧ o.rowN = some s.scan.rowOhN) ∧
    (s.gpio.pincfg.getLsbD 2 = false → o.dataOut = none ∧ o.strobeO = none) ∧
    (s.gpio.pincfg.getLsbD 2 = true →
      o.dataOut = some s.tx.txData ∧ o.strobeO = some (s.tx.strobe == s.params.strobeActiveHigh)) ∧
    (s.gpio.pincfg.getLsbD 3 = false → o.capsLedO = none ∧ o.scrClrO = none ∧ o.sysRstO = none) ∧
    (s.gpio.pincfg.getLsbD 3 = true →
      o.capsLedO = some (s.gpio.caps == s.params.ledActiveHigh) ∧
      o.scrClrO = some (s.gpio.clrAct == s.params.clrActiveHigh) ∧
      o.sysRstO = some (s.gpio.rstAct == s.params.rstActiveHigh)) ∧
    o.tickIrq = (s.tick.tickPend && s.config.tcfgImsk.getLsbD 1) ∧ o.colPuO = s.gpio.pincfg.getLsbD 1 ∧
    o.clkSysDivision = 2 ^ s.clock.clkps.toNat ∧
    (s.input.bus.rd = true → s.input.bus.wr = false →
      ∀ i t, i.isWrite = false → i.addr = s.input.bus.addr → exec i s = .next t → o.busRdataO = t.rdata) ∧
    (s.input.bus.rd = false ∨ s.input.bus.wr = true → o.busRdataO = 0#8)

/-- `tick_irq` stays 1 at every step but a poll, a commit or a reset (R211). -/
def Obligations.TickIrqHoldsUntilCleared : Prop :=
  ∀ s t : State, step s = .next t → s.input.edge ≠ .reset → (outputs s).tickIrq = true →
    (s.input.edge = .hclk → transactionOf s.input ≠ some .rdTick ∧ ∀ d, transactionOf s.input ≠ some (.wrTcfgImsk d)) →
      (outputs t).tickIrq = true

/-! ### Whole-machine laws -/

/-- Every step keeps the invariants of the block: those of R60, the transmitter's phases, the order of the configuration
handshake and the coherence of the transferred word, for every legal parameter set. -/
def Obligations.BlockInvariantKept : Prop :=
  ∀ s t : State, BlockInv s → step s = .next t → BlockInv t

/-- The block's invariants hold right after reset, for every legal parameter set. -/
def Obligations.BlockInvariantAtReset : Prop := ∀ p : Params, p.Legal → BlockInv (State.resetWith p)

/-- R60: the listed invariants hold in every reachable state. -/
def Obligations.ReachableStatesMeetInvariants : Prop :=
  ∀ (p : Params) (s : State), p.Legal → Reached p s → StateInvariants s

/-- While a request is unacknowledged by the timer, no step but a reset changes the value in flight (R168). -/
def Obligations.TransferStableWhileRequested : Prop :=
  ∀ s t : State, HandshakeOrder s → s.config.reqTgl ≠ s.timer.ackTgl → s.input.edge ≠ .reset → step s = .next t →
    transferredTimer t.config = transferredTimer s.config

/-- In every reachable state with CFG_BUSY = 0 the timer uses exactly the committed compare target, clock select and
mode (R176, R363). -/
def Obligations.ConfigIdleMeansLoaded : Prop :=
  ∀ (p : Params) (s : State), p.Legal → Reached p s → s.config.cfgBusy = false →
    loadedTimer s.timer = committedTimer s.config

/-- A launched transfer is loaded at the third tclk edge after the launch if the first flop's draw takes the new value,
and at the fourth otherwise, whatever hclk edges come between (R175). -/
def Obligations.TransferLoadsAtThirdOrFourthEdge : Prop :=
  ∀ (is : List StepInput) (i : StepInput) (s t : State), HandshakeOrder s → s.chg.reqChg = true →
    NoReset is → (tclkInputs is).head? = some i → (tclkInputs is).length ≤ 4 → runInputs is s = .next t →
      (t.timer.ackTgl ≠ s.timer.ackTgl ↔
        (if i.reqDraw = s.config.reqTgl then 3 else 4) ≤ (tclkInputs is).length)

/-- The accepted byte's strobe: one hclk edge of setup, exactly STROBE_CYCLES edges asserted, one of hold, the byte stable
throughout, whatever tclk edges and transactions come between (R266 to R268). -/
def Obligations.StrobeHasExactWidth : Prop :=
  ∀ (is : List StepInput) (s t : State), s.params.Legal → s.tx.txState = .setup → s.tx.strobe = false →
    NoReset is → (hclkInputs is).length ≤ s.params.strobeCycles + 2 → runInputs is s = .next t →
      t.tx.txData = s.tx.txData ∧
      t.tx.strobe = decide (1 ≤ (hclkInputs is).length ∧ (hclkInputs is).length ≤ s.params.strobeCycles) ∧
      (t.tx.txState = .idle ↔ (hclkInputs is).length = s.params.strobeCycles + 2)

/-- A started screen-clear pulse lasts exactly PULSE_CYCLES hclk edges, whatever comes between (R286). -/
def Obligations.PulseHasExactWidth : Prop :=
  ∀ (is : List StepInput) (s t : State), s.params.Legal → NoReset is → runInputs is s = .next t →
    (hclkInputs is).length ≤ s.params.pulseCycles →
    (s.gpio.clrAct = true → s.gpio.clrCnt = BitVec.ofNat 16 (s.params.pulseCycles - 1) →
      t.gpio.clrAct = decide ((hclkInputs is).length < s.params.pulseCycles)) ∧
    (s.gpio.rstAct = true → s.gpio.rstCnt = BitVec.ofNat 16 (s.params.pulseCycles - 1) →
      t.gpio.rstAct = decide ((hclkInputs is).length < s.params.pulseCycles))

/-- An accepted scan is busy for SETTLE_CYCLES + 1 hclk edges, and its one capture holds the pins as sampled
SETTLE_CYCLES − 1 edges after the command (R230, R241, R242). -/
def Obligations.ScanCapturesTheSettledSample : Prop :=
  ∀ (is : List StepInput) (s t : State), s.params.Legal → s.scan.scanBusy = true →
    s.scan.scanCnt = BitVec.ofNat 8 s.params.settleCycles → NoReset is → runInputs is s = .next t →
      ((hclkInputs is).length ≤ s.params.settleCycles → t.scan.scanBusy = true ∧ t.scan.colData = s.scan.colData) ∧
      ((hclkInputs is).length = s.params.settleCycles + 1 →
        t.scan.scanBusy = false ∧
        ∀ i, (hclkInputs is)[s.params.settleCycles - 2]? = some i →
          t.scan.colData = capturedColumns s.params i.colIn)

/-- After an enable write the change write is accepted at each of the four hclk edges that follow and at none after
them, whatever other transactions come between (R142, R143). -/
def Obligations.PrescalerWindowLastsFourEdges : Prop :=
  ∀ (is : List StepInput) (s t u : State) (d : Byte),
    s.clock.clkLock = false → s.clock.clkWin = 4#3 → NoReset is → runInputs is s = .next t →
    (∀ i ∈ is, i.edge = .hclk → ∀ e, transactionOf i ≠ some (.wrClkpr e)) → d.toNat ≤ 8 → exec (.wrClkpr d) t = .next u →
      if (hclkInputs is).length < 4 then u.clock = { clkps := d.extractLsb' 0 4, clkLock := true, clkWin := 0#3 }
      else u.clock = { s.clock with clkWin := 0#3 }

/-- Tick period: from a load edge on, its acknowledge still under way or not, with no commit waiting or made, the tick
toggle after `n` tclk edges has changed once for each whole `(OCRA + 1) * N` of them (R174, in tclk edges). -/
def Obligations.TickPeriodIsExact : Prop :=
  ∀ (is : List StepInput) (s t : State), running s.timer = true → s.timer.psc = 0#10 → s.timer.tcnt = 0#8 →
    HandshakeOrder s → s.config.reqTgl = s.timer.ackTgl → s.config.cfgPend = false → NoReset is →
    (∀ i ∈ is, i.edge = .hclk → ∀ d, transactionOf i ≠ some (.wrTcfgImsk d)) → runInputs is s = .next t →
      (t.timer.tickTgl = s.timer.tickTgl ↔
        ((tclkInputs is).length / ((s.timer.tOcra.toNat + 1) * csDivision s.timer.tCs)) % 2 = 0)

/-- The synchronized pulse of a fresh tick event is at the third hclk edge when the first flop's draw takes the new value
and at the fourth when it takes the old one, and at no other, whatever tclk edges that are no tick event and whatever
transactions come between (R203). -/
def Obligations.TickPulseAtThirdOrFourthEdge : Prop :=
  ∀ (is : List StepInput) (i : StepInput) (s t : State), s.chg.tickChg = true →
    s.tick.tickS1 = (!s.timer.tickTgl) → s.tick.tickS2 = (!s.timer.tickTgl) → s.tick.tickS3 = (!s.timer.tickTgl) →
    NoReset is → tickEvents is s = 0 → (hclkInputs is).head? = some i → runInputs is s = .next t →
      tickPulse t.tick = decide ((hclkInputs is).length = if i.tickDraw = s.timer.tickTgl then 2 else 3)

/-- No tick is lost or added: a tick event that finds the first flop up to date adds one change to the crossing, and an
hclk edge takes one out exactly when it has a pulse (R214). -/
def Obligations.EveryTickEventMakesOnePulse : Prop :=
  ∀ s t : State, step s = .next t →
    (s.input.edge = .tclk → (tickEvent s = true → s.tick.tickS1 = s.timer.tickTgl) →
      ticksInFlight t = ticksInFlight s + (tickEvent s).toNat) ∧
    (s.input.edge = .hclk → (s.chg.tickChg = true → s.tick.tickS1 ≠ s.timer.tickTgl) →
      ticksInFlight t + (tickPulse s.tick).toNat = ticksInFlight s)

/-- Exactly once: with OCIEA = 1 and no commit, and a poll after each pulse edge no later than at the next one, the polls
that return 1 are as many as the pulses, counting a flag that was 1 at the start and one that is 1 at the end (R213). -/
def Obligations.PollsReturnOneOncePerPulse : Prop :=
  ∀ (is : List StepInput) (s t : State), s.config.tcfgImsk.getLsbD 1 = true → NoReset is →
    (∀ i ∈ is, i.edge = .hclk → ∀ d, transactionOf i ≠ some (.wrTcfgImsk d)) → polledInTime s.tick.tickPend is s = true →
    runInputs is s = .next t →
      pollsReturningOne is s + t.tick.tickPend.toNat = s.tick.tickPend.toNat + pulseEdges is s

/-- The scanner, the transmitter, the LED and pulse flops and the tick crossing do not depend on PINCFG: with other
enables the same step gives the same of each (R246, R289). -/
def Obligations.OutputEnablesChangeOnlyPins : Prop :=
  ∀ (s t u : State) (v : BitVec 4), step s = .next t →
    step { s with gpio := { s.gpio with pincfg := v } } = .next u →
      u.clock = t.clock ∧ u.config = t.config ∧ u.tick = t.tick ∧ u.scan = t.scan ∧ u.tx = t.tx ∧
      u.timer = t.timer ∧ u.chg = t.chg ∧ { u.gpio with pincfg := t.gpio.pincfg } = t.gpio

/-- The scanner and the transmitter each depend on their own elements and the step's inputs alone (R244, R269). -/
def Obligations.ScannerAndTransmitterAreIndependent : Prop :=
  ∀ s s' t t' : State, s.params = s'.params → s.input = s'.input → step s = .next t → step s' = .next t' →
    (s.scan = s'.scan → t.scan = t'.scan) ∧ (s.tx = s'.tx → t.tx = t'.tx)

/-- In the reference environment with SETTLE_CYCLES ≥ K_ENV + 1, ROW_OE = 1, COL_PU = 1 where the columns are active low,
and no key changing, an accepted scan of a row ends with exactly that row's pressed keys (R243, R248). -/
def Obligations.ScanReadsOnlyItsRow : Prop :=
  ∀ (ms : List Move) (y z : System), y.block.params.Legal →
    y.block.scan.scanBusy = true → y.block.scan.rowValid = true →
    y.block.scan.scanCnt = BitVec.ofNat 8 y.block.params.settleCycles →
    rowOe y.block.gpio = true → (y.block.params.colActiveLow = true → colPu y.block.gpio = true) →
    1 ≤ y.env.kEnv → y.env.kEnv + 1 ≤ y.block.params.settleCycles →
    (∀ m ∈ y.env.moves, m.left ≤ y.env.kEnv - 1) →
    (∀ v, HostOp.write RegRef.pincfg.addr v ∉ y.host.todo) →
    (∀ m ∈ ms, m ≠ .reset ∧ ∀ r c b, m ≠ .key r c b) →
    (ms.filter (fun m => match m with | .hclk _ _ _ => true | _ => false)).length = y.block.params.settleCycles + 1 →
    y.run ms = .next z →
      z.block.scan.scanBusy = false ∧
      ∀ c < 8, z.block.scan.colData.getLsbD c =
        (decide (c < y.block.params.numCols) && y.env.isPressed y.block.scan.rowSel.toNat c)
end

