-- ==== Sys2Proof/Laws/State.lean ====
section
/-! SUPPORT. The small lemmas of the state updates: what each named update leaves in each field. -/

namespace Sys2Proof.Machine

variable (s : State)

/-! ### s.withInput i -/

@[simp] theorem withInput_params (i : StepInput) : (s.withInput i).params = s.params := rfl

@[simp] theorem withInput_clock (i : StepInput) : (s.withInput i).clock = s.clock := rfl

@[simp] theorem withInput_config (i : StepInput) : (s.withInput i).config = s.config := rfl

@[simp] theorem withInput_tick (i : StepInput) : (s.withInput i).tick = s.tick := rfl

@[simp] theorem withInput_scan (i : StepInput) : (s.withInput i).scan = s.scan := rfl

@[simp] theorem withInput_tx (i : StepInput) : (s.withInput i).tx = s.tx := rfl

@[simp] theorem withInput_gpio (i : StepInput) : (s.withInput i).gpio = s.gpio := rfl

@[simp] theorem withInput_timer (i : StepInput) : (s.withInput i).timer = s.timer := rfl

@[simp] theorem withInput_chg (i : StepInput) : (s.withInput i).chg = s.chg := rfl

@[simp] theorem withInput_rdata (i : StepInput) : (s.withInput i).rdata = s.rdata := rfl

@[simp] theorem withInput_input (i : StepInput) : (s.withInput i).input = i := rfl

@[simp] theorem withInput_script (i : StepInput) : (s.withInput i).script = s.script := rfl

@[simp] theorem withInput_drawn (i : StepInput) : (s.withInput i).drawn = s.drawn := rfl

/-! ### nextInput s -/

@[simp] theorem nextInput_params : (nextInput s).params = s.params := by
  unfold nextInput; split <;> rfl

@[simp] theorem nextInput_clock : (nextInput s).clock = s.clock := by
  unfold nextInput; split <;> rfl

@[simp] theorem nextInput_config : (nextInput s).config = s.config := by
  unfold nextInput; split <;> rfl

@[simp] theorem nextInput_tick : (nextInput s).tick = s.tick := by
  unfold nextInput; split <;> rfl

@[simp] theorem nextInput_scan : (nextInput s).scan = s.scan := by
  unfold nextInput; split <;> rfl

@[simp] theorem nextInput_tx : (nextInput s).tx = s.tx := by
  unfold nextInput; split <;> rfl

@[simp] theorem nextInput_gpio : (nextInput s).gpio = s.gpio := by
  unfold nextInput; split <;> rfl

@[simp] theorem nextInput_timer : (nextInput s).timer = s.timer := by
  unfold nextInput; split <;> rfl

@[simp] theorem nextInput_chg : (nextInput s).chg = s.chg := by
  unfold nextInput; split <;> rfl

@[simp] theorem nextInput_rdata : (nextInput s).rdata = s.rdata := by
  unfold nextInput; split <;> rfl

/-! ### hclkEdge s -/

@[simp] theorem hclkEdge_params : (hclkEdge s).params = s.params := rfl

@[simp] theorem hclkEdge_clock : (hclkEdge s).clock = windowCountdown s.clock := rfl

@[simp] theorem hclkEdge_config : (hclkEdge s).config = configEdge s := rfl

@[simp] theorem hclkEdge_tick : (hclkEdge s).tick = tickEdge false s := rfl

@[simp] theorem hclkEdge_scan : (hclkEdge s).scan = scanEdge s := rfl

@[simp] theorem hclkEdge_tx : (hclkEdge s).tx = txEdge s := rfl

@[simp] theorem hclkEdge_gpio : (hclkEdge s).gpio = gpioEdge s := rfl

@[simp] theorem hclkEdge_timer : (hclkEdge s).timer = s.timer := rfl

@[simp] theorem hclkEdge_chg : (hclkEdge s).chg = chgEdge false s := rfl

@[simp] theorem hclkEdge_rdata : (hclkEdge s).rdata = 0#8 := rfl

@[simp] theorem hclkEdge_input : (hclkEdge s).input = s.input := rfl

@[simp] theorem hclkEdge_script : (hclkEdge s).script = s.script := rfl

@[simp] theorem hclkEdge_drawn : (hclkEdge s).drawn = s.drawn := rfl

/-! ### readEdge v s -/

@[simp] theorem readEdge_params (v : Byte) : (readEdge v s).params = s.params := rfl

@[simp] theorem readEdge_clock (v : Byte) : (readEdge v s).clock = windowCountdown s.clock := rfl

@[simp] theorem readEdge_config (v : Byte) : (readEdge v s).config = configEdge s := rfl

@[simp] theorem readEdge_tick (v : Byte) : (readEdge v s).tick = tickEdge false s := rfl

@[simp] theorem readEdge_scan (v : Byte) : (readEdge v s).scan = scanEdge s := rfl

@[simp] theorem readEdge_tx (v : Byte) : (readEdge v s).tx = txEdge s := rfl

@[simp] theorem readEdge_gpio (v : Byte) : (readEdge v s).gpio = gpioEdge s := rfl

@[simp] theorem readEdge_timer (v : Byte) : (readEdge v s).timer = s.timer := rfl

@[simp] theorem readEdge_chg (v : Byte) : (readEdge v s).chg = chgEdge false s := rfl

@[simp] theorem readEdge_rdata (v : Byte) : (readEdge v s).rdata = v := rfl

@[simp] theorem readEdge_input (v : Byte) : (readEdge v s).input = s.input := rfl

@[simp] theorem readEdge_script (v : Byte) : (readEdge v s).script = s.script := rfl

@[simp] theorem readEdge_drawn (v : Byte) : (readEdge v s).drawn = s.drawn := rfl

/-! ### tclkEdge s -/

@[simp] theorem tclkEdge_params : (tclkEdge s).params = s.params := rfl

@[simp] theorem tclkEdge_clock : (tclkEdge s).clock = s.clock := rfl

@[simp] theorem tclkEdge_config : (tclkEdge s).config = s.config := rfl

@[simp] theorem tclkEdge_tick : (tclkEdge s).tick = s.tick := rfl

@[simp] theorem tclkEdge_scan : (tclkEdge s).scan = s.scan := rfl

@[simp] theorem tclkEdge_tx : (tclkEdge s).tx = s.tx := rfl

@[simp] theorem tclkEdge_gpio : (tclkEdge s).gpio = s.gpio := rfl

@[simp] theorem tclkEdge_timer : (tclkEdge s).timer = { (loadOrCount s).1 with
      reqS1 := firstFlop s.chg.reqChg s.input.reqDraw s.config.reqTgl
      reqS2 := s.timer.reqS1
      reqS3 := s.timer.reqS2 } := rfl

@[simp] theorem tclkEdge_chg : (tclkEdge s).chg = { tickChg := (loadOrCount s).2 || s.chg.tickChg, ackChg := loads s.timer || s.chg.ackChg, reqChg := false } := rfl

@[simp] theorem tclkEdge_rdata : (tclkEdge s).rdata = s.rdata := rfl

@[simp] theorem tclkEdge_input : (tclkEdge s).input = s.input := rfl

@[simp] theorem tclkEdge_script : (tclkEdge s).script = s.script := rfl

@[simp] theorem tclkEdge_drawn : (tclkEdge s).drawn = s.drawn := rfl

/-! ### resetStep s -/

@[simp] theorem resetStep_params : (resetStep s).params = s.params := rfl

@[simp] theorem resetStep_clock : (resetStep s).clock = .reset s.params := rfl

@[simp] theorem resetStep_config : (resetStep s).config = .reset := rfl

@[simp] theorem resetStep_tick : (resetStep s).tick = .reset := rfl

@[simp] theorem resetStep_scan : (resetStep s).scan = .reset s.params := rfl

@[simp] theorem resetStep_tx : (resetStep s).tx = .reset := rfl

@[simp] theorem resetStep_gpio : (resetStep s).gpio = .reset := rfl

@[simp] theorem resetStep_timer : (resetStep s).timer = .reset := rfl

@[simp] theorem resetStep_chg : (resetStep s).chg = .reset := rfl

@[simp] theorem resetStep_rdata : (resetStep s).rdata = 0#8 := rfl

@[simp] theorem resetStep_input : (resetStep s).input = s.input := rfl

@[simp] theorem resetStep_script : (resetStep s).script = s.script := rfl

@[simp] theorem resetStep_drawn : (resetStep s).drawn = s.drawn := rfl

end Sys2Proof.Machine
end

