-- ==== Sys2Proof/Laws/Edges.lean ====
section
/-! SUPPORT. One equation for each kind of step. A transaction acts on the parts of the block one by one, so the whole of
`exec` is `hclkWith`, whose parts are the functions below; proofs about an hclk edge cite `step_hclk` and split one part. -/

namespace Sys2Proof.Machine

/-! ### The parts after an hclk edge with an optional transaction -/

def clockAt (o : Option Instr) (s : State) : ClockPart :=
  match o with
  | some (.wrClkpr d) => clkprWrite d s.clock
  | _ => windowCountdown s.clock

def configAt (o : Option Instr) (s : State) : ConfigPart :=
  match o with
  | some (.wrOcra d) => { configEdge s with stgOcra := d }
  | some (.wrTcfgA d) => { configEdge s with stgA := d }
  | some (.wrTcfgB d) => { configEdge s with stgB := (lowNibble d).setWidth 8 }
  | some (.wrTcfgImsk d) => configCommit d s
  | _ => configEdge s

def isCommit : Option Instr → Bool
  | some (.wrTcfgImsk _) => true
  | _ => false

def isPoll : Option Instr → Bool
  | some .rdTick => true
  | _ => false

def scanAt (o : Option Instr) (s : State) : ScanPart :=
  match o with
  | some (.wrRowScan d) => scanCommand (rowIndex d) s
  | _ => scanEdge s

def txAt (o : Option Instr) (s : State) : TxPart :=
  match o with
  | some (.wrTxData d) => txCommand d s
  | _ => txEdge s

def gpioAt (o : Option Instr) (s : State) : GpioPart :=
  match o with
  | some (.wrLed d) => { gpioEdge s with caps := d.getLsbD 0 }
  | some (.wrPulse d) => gpioPulse (d.getLsbD 0) (d.getLsbD 1) s
  | some (.wrPincfg d) => { gpioEdge s with pincfg := lowNibble d }
  | _ => gpioEdge s

def rdataAt (o : Option Instr) (s : State) : Byte :=
  match o with
  | some i => if i.isWrite then 0#8 else readValue i.addr s
  | none => 0#8

/-- The state after an hclk edge whose transaction is `o`. -/
def hclkWith (o : Option Instr) (s : State) : State :=
  { s with
    clock := clockAt o s
    config := configAt o s
    tick := tickEdge (isPoll o || isCommit o) s
    scan := scanAt o s
    tx := txAt o s
    gpio := gpioAt o s
    chg := chgEdge (isCommit o) s
    rdata := rdataAt o s }

/-- Every transaction's meaning is the edge with its transaction, part by part. -/
theorem exec_eq_hclkWith (i : Instr) (s : State) : exec i s = .next (hclkWith (some i) s) := by
  cases i <;> rfl

theorem hclkEdge_eq_hclkWith (s : State) : hclkEdge s = hclkWith none s := rfl

/-! ### The step -/

theorem mapNext_next {f : State → State} {o : Host.Outcome State Fault Refusal} {t : State}
    (h : mapNext f o = .next t) : ∃ u, o = .next u ∧ t = f u := by
  cases o with
  | next u => exact ⟨u, rfl, by simpa [mapNext] using h.symm⟩
  | fault r => simp [mapNext] at h
  | refused r => simp [mapNext] at h

/-- A step that answers a next state had legal parameters and took one edge, then the next inputs. -/
theorem step_next {s t : State} (h : step s = .next t) :
    s.params.Legal ∧ ∃ u, edgeStep s = .next u ∧ t = nextInput u := by
  unfold step at h
  split at h
  · exact ⟨‹_›, mapNext_next h⟩
  · simp at h

/-- An hclk edge is `hclkWith` of the bus's transaction. -/
theorem hclkStep_next {s u : State} (h : hclkStep s = .next u) : u = hclkWith (transactionOf s.input) s := by
  unfold hclkStep at h
  unfold transactionOf
  cases hb : busWord s.input.bus with
  | none => simpa [hb, hclkEdge_eq_hclkWith] using h.symm
  | some w =>
    cases hd : decode w with
    | ok i => simpa [hb, hd, Except.toOption, exec_eq_hclkWith] using h.symm
    | error e => simp [hb, hd] at h

theorem step_hclk {s t : State} (he : s.input.edge = .hclk) (h : step s = .next t) :
    t = nextInput (hclkWith (transactionOf s.input) s) := by
  obtain ⟨-, u, hu, rfl⟩ := step_next h
  simp only [edgeStep, he] at hu
  rw [hclkStep_next hu]

theorem step_tclk {s t : State} (he : s.input.edge = .tclk) (h : step s = .next t) : t = nextInput (tclkEdge s) := by
  obtain ⟨-, u, hu, rfl⟩ := step_next h
  simp only [edgeStep, he, Host.Outcome.next.injEq] at hu
  rw [hu]

theorem step_reset {s t : State} (he : s.input.edge = .reset) (h : step s = .next t) :
    t = nextInput (resetStep s) := by
  obtain ⟨-, u, hu, rfl⟩ := step_next h
  simp only [edgeStep, he, Host.Outcome.next.injEq] at hu
  rw [hu]

/-- A step is one of the three edges. -/
theorem step_cases {s t : State} (h : step s = .next t) :
    (s.input.edge = .hclk ∧ t = nextInput (hclkWith (transactionOf s.input) s)) ∨
    (s.input.edge = .tclk ∧ t = nextInput (tclkEdge s)) ∨
    (s.input.edge = .reset ∧ t = nextInput (resetStep s)) := by
  cases he : s.input.edge with
  | hclk => exact .inl ⟨rfl, step_hclk he h⟩
  | tclk => exact .inr (.inl ⟨rfl, step_tclk he h⟩)
  | reset => exact .inr (.inr ⟨rfl, step_reset he h⟩)

/-! ### Runs -/

theorem runInputs_cons {i : StepInput} {is : List StepInput} {s t : State} (h : runInputs (i :: is) s = .next t) :
    ∃ u, step (s.withInput i) = .next u ∧ runInputs is u = .next t := by
  simp only [runInputs] at h
  split at h
  · exact ⟨_, ‹_›, h⟩
  · simp at h
  · simp at h

/-- The count over a run is the first step's and the rest's. -/
theorem countSteps_cons {f : StepInput → State → State → Bool} {i : StepInput} {is : List StepInput} {s u : State}
    (h : step (s.withInput i) = .next u) : countSteps f (i :: is) s = (f i s u).toNat + countSteps f is u := by
  simp [countSteps, h]

/-- A run keeps what every step keeps, whatever the inputs. -/
theorem runInputs_keeps {P : State → Prop} (hin : ∀ s i, P s → P (s.withInput i))
    (hstep : ∀ s t, P s → step s = .next t → P t) :
    ∀ {is : List StepInput} {s t : State}, P s → runInputs is s = .next t → P t
  | [], s, t, hp, h => by
    simp only [runInputs, Host.Outcome.next.injEq] at h
    exact h ▸ hp
  | i :: is, s, t, hp, h => by
    obtain ⟨u, hu, ht⟩ := runInputs_cons h
    exact runInputs_keeps hin hstep (hstep _ _ (hin _ i hp) hu) ht

/-! ### The shared operations -/

/-- The first flop takes the source, or, at the first edge after a change, any draw. -/
theorem firstFlop_cases (chg draw src : Bool) : firstFlop chg draw src = src ∨ (chg = true ∧ firstFlop chg draw src = draw) := by
  cases chg <;> simp [firstFlop]

/-- The window counts down and stops at 0; CLKPS and LOCK stay. -/
theorem windowCountdown_spec (c : ClockPart) :
    (windowCountdown c).clkps = c.clkps ∧ (windowCountdown c).clkLock = c.clkLock ∧
    (windowCountdown c).clkWin.toNat = c.clkWin.toNat - 1 := by
  refine ⟨rfl, rfl, ?_⟩
  simp only [windowCountdown]
  split
  · next h => simp [h]
  · next h =>
    have : c.clkWin.toNat ≠ 0 := fun h0 => h (BitVec.eq_of_toNat_eq (by simpa using h0))
    have := c.clkWin.isLt
    have h1 : (1#3).toNat = 1 := rfl
    simp only [BitVec.toNat_sub, h1]
    omega

/-- A write of CLKPR opens the window, accepts, closes it, or only counts it down. -/
theorem clkprWrite_cases (d : Byte) (c : ClockPart) :
    (c.clkLock = false ∧ c.clkWin = 0#3 ∧ d = 0x80 ∧ clkprWrite d c = { c with clkWin := 4#3 }) ∨
    (c.clkLock = false ∧ c.clkWin ≠ 0#3 ∧ isChangePattern d = true ∧ (lowNibble d).toNat ≤ 8 ∧
      clkprWrite d c = { clkps := lowNibble d, clkLock := true, clkWin := 0#3 }) ∨
    (c.clkLock = false ∧ c.clkWin ≠ 0#3 ∧ isChangePattern d = true ∧ 8 < (lowNibble d).toNat ∧
      clkprWrite d c = { c with clkWin := 0#3 }) ∨
    clkprWrite d c = windowCountdown c := by
  unfold clkprWrite
  split
  · next h => simp [isEnablePattern] at h; exact .inl ⟨h.1.1, h.1.2, h.2, rfl⟩
  · split
    · next h =>
      simp at h
      split
      · next h8 => exact .inr (.inl ⟨h.1.1, h.1.2, h.2, h8, rfl⟩)
      · next h8 => exact .inr (.inr (.inl ⟨h.1.1, h.1.2, h.2, by omega, rfl⟩))
    · exact .inr (.inr (.inr rfl))

/-- The handshake launches, ends, queues or waits; it never touches the staging or the committed word, and it shifts the
acknowledge flops. -/
theorem handshake_cases (commit a : Bool) (c : ConfigPart) :
    (launches commit c = true ∧ handshake commit a c =
      { c with ackS1 := a, ackS2 := c.ackS1, ackS3 := c.ackS2, xferCs := csOf c.tcfgB, xferWgm := wgmOf c.tcfgB c.tcfgA,
               xferOcra := c.ocra, reqTgl := !c.reqTgl, cfgBusy := true, cfgPend := false }) ∨
    (launches commit c = false ∧ c.cfgBusy = true ∧ ackSeen c = true ∧ handshake commit a c =
      { c with ackS1 := a, ackS2 := c.ackS1, ackS3 := c.ackS2, cfgBusy := false }) ∨
    (launches commit c = false ∧ c.cfgBusy = true ∧ ackSeen c = false ∧ commit = true ∧ handshake commit a c =
      { c with ackS1 := a, ackS2 := c.ackS1, ackS3 := c.ackS2, cfgPend := true }) ∨
    (launches commit c = false ∧ (c.cfgBusy = true → ackSeen c = false ∧ commit = false) ∧ handshake commit a c =
      { c with ackS1 := a, ackS2 := c.ackS1, ackS3 := c.ackS2 }) := by
  unfold handshake
  cases hl : launches commit c
  · cases hb : c.cfgBusy <;> cases ha : ackSeen c <;> cases commit <;> simp_all
  · exact .inl ⟨rfl, by simp⟩

/-- A busy scanner ignores a command. -/
theorem scanCommand_busy {r : Nat} {s : State} (h : s.scan.scanBusy = true) : scanCommand r s = scanEdge s := by
  simp [scanCommand, h]

/-- A busy transmitter ignores a command. -/
theorem txCommand_busy {d : Byte} {s : State} (h : s.tx.txState ≠ .idle) : txCommand d s = txEdge s := by
  simp [txCommand, txBusy, h]

/-- A count edge holds the configuration and the synchronizers, and keeps `tcnt` at or below the compare target. -/
theorem countEdge_spec (t : TimerPart) :
    (countEdge t).1.tCs = t.tCs ∧ (countEdge t).1.tWgm = t.tWgm ∧ (countEdge t).1.tOcra = t.tOcra ∧
    (countEdge t).1.ackTgl = t.ackTgl ∧ (countEdge t).1.reqS1 = t.reqS1 ∧ (countEdge t).1.reqS2 = t.reqS2 ∧
    (countEdge t).1.reqS3 = t.reqS3 ∧ ((countEdge t).1.tickTgl = (t.tickTgl ^^ (countEdge t).2)) ∧
    (t.tcnt.toNat ≤ t.tOcra.toNat → (countEdge t).1.tcnt.toNat ≤ t.tOcra.toNat) := by
  unfold countEdge
  split
  · split
    · split
      · simp
      · next hne =>
        refine ⟨rfl, rfl, rfl, rfl, rfl, rfl, rfl, by simp, fun hle => ?_⟩
        have : t.tcnt.toNat ≠ t.tOcra.toNat := fun h => hne (BitVec.eq_of_toNat_eq h)
        have := t.tOcra.isLt
        have h1 : (1#8).toNat = 1 := rfl
        simp only [BitVec.toNat_add, h1]
        omega
    · simp
  · simp

/-- A started pulse generator gets the full count; any other edge is the countdown. -/
theorem pulseStart_cases (p : Params) (start act : Bool) (cnt : BitVec 16) :
    (start = true ∧ act = false ∧ pulseStart p start act cnt = (true, BitVec.ofNat 16 (p.pulseCycles - 1))) ∨
    pulseStart p start act cnt = pulseEdge act cnt := by
  unfold pulseStart
  cases start <;> cases act <;> simp

end Sys2Proof.Machine
end

