-- ==== Sys2Proof/Laws/PerInstr.lean ====
section
/-! SUPPORT. One law of every transaction as syntax: its canonical word carries its W, A and D in their places (30_encoding.md
R110), and D is 0 for a read (R111). -/

namespace Sys2Proof.Laws.WordFields

/-- The three fields of the transaction's canonical word. -/
def Statement (i : Instr) : Prop :=
  (encode i).getLsbD 12 = i.isWrite ∧ (encode i).extractLsb' 8 4 = i.addr ∧ (encode i).extractLsb' 0 8 = i.data ∧
  (i.isWrite = false → i.data = 0)

theorem wordOf_fields (w : Bool) (a : RegAddr) (d : Byte) :
    (wordOf w a d).getLsbD 12 = w ∧ (wordOf w a d).extractLsb' 8 4 = a ∧ (wordOf w a d).extractLsb' 0 8 = d := by
  refine ⟨?_, ?_, ?_⟩
  · simp only [wordOf, BitVec.getLsbD_append]
    cases w <;> rfl
  · apply BitVec.eq_of_getLsbD_eq
    intro k hk
    simp only [wordOf, BitVec.getLsbD_extractLsb', BitVec.getLsbD_append, hk, decide_true, Bool.true_and]
    simp [show ¬ 8 + k < 8 by omega, show 8 + k - 8 = k by omega, hk]
  · apply BitVec.eq_of_getLsbD_eq
    intro k hk
    simp only [wordOf, BitVec.getLsbD_extractLsb', BitVec.getLsbD_append, hk, decide_true, Bool.true_and]
    simp [hk]

theorem of_fields (i : Instr) (h : i.isWrite = false → i.data = 0) : Statement i :=
  let f := wordOf_fields i.isWrite i.addr i.data
  ⟨f.1, f.2.1, f.2.2, h⟩

theorem rdClkpr : Statement .rdClkpr := of_fields _ fun _ => rfl

theorem wrClkpr (d : Byte) : Statement (.wrClkpr d) := of_fields _ fun h => nomatch h

theorem rdOcra : Statement .rdOcra := of_fields _ fun _ => rfl

theorem wrOcra (d : Byte) : Statement (.wrOcra d) := of_fields _ fun h => nomatch h

theorem rdTcfgA : Statement .rdTcfgA := of_fields _ fun _ => rfl

theorem wrTcfgA (d : Byte) : Statement (.wrTcfgA d) := of_fields _ fun h => nomatch h

theorem rdTcfgB : Statement .rdTcfgB := of_fields _ fun _ => rfl

theorem wrTcfgB (d : Byte) : Statement (.wrTcfgB d) := of_fields _ fun h => nomatch h

theorem rdTcfgImsk : Statement .rdTcfgImsk := of_fields _ fun _ => rfl

theorem wrTcfgImsk (d : Byte) : Statement (.wrTcfgImsk d) := of_fields _ fun h => nomatch h

theorem rdTick : Statement .rdTick := of_fields _ fun _ => rfl

theorem wrTick (d : Byte) : Statement (.wrTick d) := of_fields _ fun h => nomatch h

theorem rdStatus : Statement .rdStatus := of_fields _ fun _ => rfl

theorem wrStatus (d : Byte) : Statement (.wrStatus d) := of_fields _ fun h => nomatch h

theorem rdRowScan : Statement .rdRowScan := of_fields _ fun _ => rfl

theorem wrRowScan (d : Byte) : Statement (.wrRowScan d) := of_fields _ fun h => nomatch h

theorem rdColData : Statement .rdColData := of_fields _ fun _ => rfl

theorem wrColData (d : Byte) : Statement (.wrColData d) := of_fields _ fun h => nomatch h

theorem rdTxData : Statement .rdTxData := of_fields _ fun _ => rfl

theorem wrTxData (d : Byte) : Statement (.wrTxData d) := of_fields _ fun h => nomatch h

theorem rdLed : Statement .rdLed := of_fields _ fun _ => rfl

theorem wrLed (d : Byte) : Statement (.wrLed d) := of_fields _ fun h => nomatch h

theorem rdPulse : Statement .rdPulse := of_fields _ fun _ => rfl

theorem wrPulse (d : Byte) : Statement (.wrPulse d) := of_fields _ fun h => nomatch h

theorem rdPincfg : Statement .rdPincfg := of_fields _ fun _ => rfl

theorem wrPincfg (d : Byte) : Statement (.wrPincfg d) := of_fields _ fun h => nomatch h

theorem rdRsvdD : Statement .rdRsvdD := of_fields _ fun _ => rfl

theorem wrRsvdD (d : Byte) : Statement (.wrRsvdD d) := of_fields _ fun h => nomatch h

theorem rdRsvdE : Statement .rdRsvdE := of_fields _ fun _ => rfl

theorem wrRsvdE (d : Byte) : Statement (.wrRsvdE d) := of_fields _ fun h => nomatch h

theorem rdRsvdF : Statement .rdRsvdF := of_fields _ fun _ => rfl

theorem wrRsvdF (d : Byte) : Statement (.wrRsvdF d) := of_fields _ fun h => nomatch h

end Sys2Proof.Laws.WordFields
end

