-- ==== Sys2Proof/Tests/Slice0.lean ====
section
/-! SUPPORT. Tests of the model. Expected values come from the spec: the opcode map of 30_encoding.md R113, the vectors of
95_test_vectors.md (named in each comment), or the rule named. Then one witness for each statement with hypotheses. -/

namespace Sys2Proof.Tests

open Sys2Proof Sys2Proof.Machine

/-! ### Helpers -/

/-- A view of the next state of an outcome. -/
def view {α : Type} (o : Host.Outcome State Fault Refusal) (f : State → α) : Option α :=
  match o with
  | .next s => some (f s)
  | .fault _ => none
  | .refused _ => none

/-- The inputs of an hclk edge that carries a transaction. -/
def tx (i : Instr) : StepInput := { StepInput.quiet with bus := busOf (encode i) }

/-- The inputs of a tclk edge, with its draw. -/
def tclkIn (draw : Bool) : StepInput := { StepInput.quiet with edge := .tclk, reqDraw := draw }

/-- The inputs of a reset step. -/
def resetIn : StepInput := { StepInput.quiet with edge := .reset }

/-- The inputs of an hclk edge with no transaction, with the tick's draw. -/
def drawIn (draw : Bool) : StepInput := { StepInput.quiet with tickDraw := draw }

/-- `s` about to take the inputs `i`, then a quiet edge. -/
def facing (i : StepInput) (s : State) : State := { s with input := i, script := [StepInput.quiet] }

/-- REF8 with short counters: the smallest legal SETTLE_CYCLES, STROBE_CYCLES and PULSE_CYCLES, at a slow clock. -/
def shortParams : Params :=
  { Params.ref8 with fSrc := 100000, fHclk := 100000, settleCycles := 2, strobeCycles := 1, pulseCycles := 1 }

/-- A block with the short counters, right after reset. -/
def short : State := State.resetWith shortParams

/-- A row scan under way, its settling over: row 1 driven, column 2 low (V43-2 before e+5). -/
def scanning : State :=
  { State.reset with scan := { State.reset.scan with
      rowSel := 1, rowValid := true, rowOhN := 0b101, scanBusy := true, scanCnt := 0, colS1 := 0xFB, colS2 := 0xFB } }

/-- A running scan with its whole settling time to go. -/
def settling : State :=
  { short with scan := { short.scan with rowSel := 1, rowValid := true, rowOhN := 0b101, scanBusy := true, scanCnt := 2 } }

/-- The transmitter in SETUP with a byte. -/
def sending : State := { short with tx := { short.tx with txData := 0xA5, txState := .setup } }

/-- The transmitter in HOLD. -/
def holding : State := { short with tx := { short.tx with txData := 0xA5, txState := .hold } }

/-- Both pulses at their first cycle. -/
def pulsing : State :=
  { short with gpio := { short.gpio with clrAct := true, clrCnt := 0, rstAct := true, rstCnt := 0 } }

/-- The tick flag set and its interrupt enabled. -/
def ticked : State :=
  { State.reset with
    tick := { State.reset.tick with tickPend := true }
    config := { State.reset.config with tcfgImsk := 2 } }

/-- A pulse of the tick synchronizer at this edge, the interrupt enabled, the flag 0 (V42-2). -/
def pulse : State :=
  { State.reset with
    tick := { State.reset.tick with tickS1 := true, tickS2 := true }
    timer := { State.reset.timer with tickTgl := true }
    config := { State.reset.config with tcfgImsk := 2 } }

/-- The timer running with division 1 and compare target 0, at the start of a period. -/
def counting : State := { State.reset with timer := { State.reset.timer with tCs := 1, tWgm := 2 } }

/-- A tick event whose crossing has not begun, with the timer running and its next tick event far off. -/
def tickLeaving : State :=
  { counting with
    timer := { counting.timer with tOcra := 124, tickTgl := true }
    chg := { counting.chg with tickChg := true } }

/-- The timer just loaded with division 1 and compare target 0, its acknowledge still under way. -/
def justLoaded : State :=
  { counting with
    config := { counting.config with reqTgl := true, cfgBusy := true }
    timer := { counting.timer with reqS1 := true, reqS2 := true, reqS3 := true, ackTgl := true }
    chg := { counting.chg with ackChg := true } }

/-- The window of CLKPR just opened. -/
def windowOpen : State := { State.reset with clock := { State.reset.clock with clkWin := 4 } }

/-- A configuration transfer just launched. -/
def launched : State :=
  { State.reset with
    config := { State.reset.config with reqTgl := true, cfgBusy := true }
    chg := { State.reset.chg with reqChg := true } }

/-- Staging written for V41-3. -/
def staged : State :=
  { State.reset with config := { State.reset.config with stgOcra := 124, stgA := 0x02, stgB := 0x03 } }

/-! ### Decoding: the words of R113, written bit by bit for one transaction of each family -/

theorem test_decode_clock_prescaler :
    decode 0b1000010000000#13 = .ok (.wrClkpr 0x80) ∧ decodeTableWord 16 0x0000 = some .rdClkpr :=
  ⟨rfl, rfl⟩

theorem test_decode_timer :
    decode 0b1001100000011#13 = .ok (.wrTcfgB 0x03) ∧ decodeTableWord 16 0x0100 = some .rdOcra ∧
    decodeTableWord 16 0x117C = some (.wrOcra 124) ∧ decodeTableWord 16 0x0200 = some .rdTcfgA ∧
    decodeTableWord 16 0x1202 = some (.wrTcfgA 2) ∧ decodeTableWord 16 0x0300 = some .rdTcfgB ∧
    decodeTableWord 16 0x0400 = some .rdTcfgImsk ∧ decodeTableWord 16 0x1402 = some (.wrTcfgImsk 2) :=
  ⟨rfl, rfl, rfl, rfl, rfl, rfl, rfl, rfl⟩

theorem test_decode_tick_and_status :
    decode 0b0010100000000#13 = .ok .rdTick ∧ decodeTableWord 16 0x1500 = some (.wrTick 0) ∧
    decodeTableWord 16 0x0600 = some .rdStatus ∧ decodeTableWord 16 0x16FF = some (.wrStatus 0xFF) :=
  ⟨rfl, rfl, rfl, rfl⟩

theorem test_decode_row_scan :
    decode 0b1011100000001#13 = .ok (.wrRowScan 1) ∧ decodeTableWord 16 0x0700 = some .rdRowScan ∧
    decodeTableWord 16 0x0800 = some .rdColData ∧ decodeTableWord 16 0x1801 = some (.wrColData 1) :=
  ⟨rfl, rfl, rfl, rfl⟩

theorem test_decode_strobe_tx :
    decode 0b1100110100101#13 = .ok (.wrTxData 0xA5) ∧ decodeTableWord 16 0x0900 = some .rdTxData := ⟨rfl, rfl⟩

theorem test_decode_gpio :
    decode 0b1101001011100#13 = .ok (.wrLed 0x5C) ∧ decodeTableWord 16 0x0A00 = some .rdLed ∧
    decodeTableWord 16 0x0B00 = some .rdPulse ∧ decodeTableWord 16 0x1B03 = some (.wrPulse 3) ∧
    decodeTableWord 16 0x0C00 = some .rdPincfg ∧ decodeTableWord 16 0x1C0F = some (.wrPincfg 0x0F) :=
  ⟨rfl, rfl, rfl, rfl, rfl, rfl⟩

theorem test_decode_reserved :
    decode 0b1111000000001#13 = .ok (.wrRsvdE 1) ∧ decodeTableWord 16 0x0D00 = some .rdRsvdD ∧
    decodeTableWord 16 0x1D00 = some (.wrRsvdD 0) ∧ decodeTableWord 16 0x0E00 = some .rdRsvdE ∧
    decodeTableWord 16 0x0F00 = some .rdRsvdF ∧ decodeTableWord 16 0x1FFF = some (.wrRsvdF 0xFF) :=
  ⟨rfl, rfl, rfl, rfl, rfl, rfl⟩

/-- R111: a read's D is ignored. -/
theorem test_decode_read_ignores_data : decodeTableWord 16 0x05FF = some .rdTick := rfl

/-- R110: a transaction has 13 bits; a number with more is rejected by name. -/
theorem test_decode_rejects_fourteen_bits : decodeNat 0x2000 = .error .beyondThirteenBits := rfl

/-- The host's own path: the word on the bus is what the next step runs (`WR LED, 1`, R282). -/
theorem test_fetch_word_runs : view (step (facing StepInput.quiet State.reset |>.withFetchWord 16 0x1A01)) (·.gpio.caps) = some true :=
  rfl

/-! ### The checks of the syntax refuse an ill-formed term each -/

theorem test_reserved_address_refused : (Instr.rdRsvdD).avoidsReservedAddress = false := rfl

theorem test_reserved_bits_refused :
    (Instr.wrClkpr 0x90).writesZeroToReserved = false ∧ (Instr.wrTcfgB 0x13).writesZeroToReserved = false ∧
    (Instr.wrTcfgImsk 0xF2).writesZeroToReserved = false ∧ (Instr.wrLed 0x02).writesZeroToReserved = false ∧
    (Instr.wrPulse 0x04).writesZeroToReserved = false ∧ (Instr.wrPincfg 0xF5).writesZeroToReserved = false := by
  decide

theorem test_line_refused :
    (Line.rd (.address 16)).wellFormed = false ∧ (Line.wr .led 256).wellFormed = false ∧
    (Line.waitClr .status 256).wellFormed = false ∧ (Line.configureClock 9).wellFormed = false ∧
    (Line.initTickTimer 256 3).wellFormed = false ∧ (Line.initTickTimer 124 8).wellFormed = false ∧
    (Line.boot 9 124 3).wellFormed = false ∧ (Line.readRow 256).wellFormed = false ∧
    (Line.sendCode 256).wellFormed = false := by
  decide

/-- R12: each constraint refuses a parameter set; REF8 is legal. -/
theorem test_params_refused :
    Params.ref8.Legal ∧
    ∀ p ∈ [{ Params.ref8 with numRows := 17 }, { Params.ref8 with numCols := 9 },
      { Params.ref8 with settleCycles := 1 }, { Params.ref8 with strobeCycles := 79 },
      { Params.ref8 with pulseCycles := 79 }, { Params.ref8 with clkpsReset := 9 }], ¬ p.Legal := by
  decide

/-! ### One step of each transaction -/

/-- V40-9: with CLKPS_RESET = 3, CLKPR reads 0x03. -/
theorem test_rdClkpr :
    view (exec .rdClkpr (State.resetWith { Params.ref8 with clkpsReset := 3 })) (·.rdata) = some 0x03 := rfl

/-- V40-1 and V40-2: 0x80 opens the window, and 0x03 inside it is accepted and locks. -/
theorem test_wrClkpr :
    view (exec (.wrClkpr 0x80) State.reset) (·.clock.clkWin) = some 4 ∧
    view (exec (.wrClkpr 0x03) windowOpen) (fun s => (s.clock.clkps, s.clock.clkLock, s.clock.clkWin)) =
      some (3, true, 0) :=
  ⟨rfl, rfl⟩

/-- V40-5 and V40-6: 0x09 closes the window; 0x15 is no pattern and the window counts on. -/
theorem test_wrClkpr_not_accepted :
    view (exec (.wrClkpr 0x09) windowOpen) (fun s => (s.clock.clkLock, s.clock.clkWin)) = some (false, 0) ∧
    view (exec (.wrClkpr 0x15) windowOpen) (fun s => (s.clock.clkLock, s.clock.clkWin)) = some (false, 3) :=
  ⟨rfl, rfl⟩

/-- V41-1: a staged compare target does not read back. -/
theorem test_rdOcra : view (exec .rdOcra staged) (·.rdata) = some 0x00 := rfl

/-- V41-1: OCRA is staged. -/
theorem test_wrOcra : view (exec (.wrOcra 5) State.reset) (fun s => (s.config.stgOcra, s.config.ocra)) = some (5, 0) :=
  rfl

/-- V41-2: bits 7:4 of byte B are dropped at staging. -/
theorem test_wrTcfgB : view (exec (.wrTcfgB 0xF3) State.reset) (·.config.stgB) = some 0x03 := rfl

/-- R163. -/
theorem test_wrTcfgA : view (exec (.wrTcfgA 0x42) State.reset) (fun s => (s.config.stgA, s.config.tcfgA)) = some (0x42, 0) :=
  rfl

/-- V41-3: the commit takes all four bytes; CFG_BUSY is 1 right after it. -/
theorem test_wrTcfgImsk :
    view (exec (.wrTcfgImsk 0xF2) staged)
      (fun s => (s.config.ocra, s.config.tcfgA, s.config.tcfgB, s.config.tcfgImsk, s.config.cfgBusy)) =
      some (124, 0x02, 0x03, 0x02, true) :=
  rfl

/-- V42-5: the set wins over the commit's clear, and uses OCIEA as it was. -/
theorem test_wrTcfgImsk_set_wins :
    view (exec (.wrTcfgImsk 0x00) pulse) (fun s => (s.tick.tickPend, (outputs s).tickIrq)) = some (true, false) := rfl

/-- V42-1: a poll returns the flag and clears it. -/
theorem test_rdTick : view (exec .rdTick ticked) (fun s => (s.rdata, s.tick.tickPend)) = some (0x01, false) := rfl

/-- V42-2: a tick at the poll's edge is kept. -/
theorem test_rdTick_set_wins : view (exec .rdTick pulse) (fun s => (s.rdata, s.tick.tickPend)) = some (0x00, true) := rfl

/-- V42-6: a write of TICK does not clear. -/
theorem test_wrTick : view (exec (.wrTick 0) ticked) (·.tick.tickPend) = some true := rfl

/-- V20-2: both strobes are the write alone, which is no poll. -/
theorem test_both_strobes :
    view (step (facing { StepInput.quiet with bus := ⟨5, 0, true, true⟩ } ticked)) (fun s => (s.rdata, s.tick.tickPend)) =
      some (0x00, true) :=
  rfl

/-- V42-7: STATUS shows TICK and SCAN_BUSY and clears neither. -/
theorem test_rdStatus :
    view (exec .rdStatus { settling with tick := ticked.tick }) (fun s => (s.rdata, s.tick.tickPend)) =
      some (0x05, true) :=
  rfl

/-- R209: the four other flags. -/
theorem test_rdStatus_busy_flags :
    view (exec .rdStatus { pulsing with tx := holding.tx, config := launched.config }) (·.rdata) = some 0x3A := rfl

/-- V43-4: ROW_SCAN reads 0x81 with row 1 driven. -/
theorem test_rdRowScan : view (exec .rdRowScan scanning) (·.rdata) = some 0x81 := rfl

/-- V43-1: a scan of row 1 of three. -/
theorem test_wrRowScan :
    view (exec (.wrRowScan 1) State.reset)
      (fun s => (s.scan.rowSel, s.scan.rowValid, s.scan.rowOhN, s.scan.scanCnt, s.scan.scanBusy)) =
      some (1, true, 0b101, 4, true) :=
  rfl

/-- V43-5 and V43-7: row 17 is out of range, not row 1; a command at the capture edge is ignored. -/
theorem test_wrRowScan_not_started :
    view (exec (.wrRowScan 17) { State.reset with scan := { State.reset.scan with colData := 0x04 } })
      (fun s => (s.scan.rowValid, s.scan.scanBusy, s.scan.colData)) = some (false, false, 0) ∧
    view (exec (.wrRowScan 2) scanning) (fun s => (s.scan.rowSel, s.scan.scanBusy, s.scan.colData)) =
      some (1, false, 0x04) :=
  ⟨rfl, rfl⟩

/-- V43-8: with five columns, COL_DATA shows five bits. -/
theorem test_capture_masks_columns :
    capturedColumns { Params.ref8 with numCols := 5 } 0x00 = 0x1F := rfl

/-- V44-1 after e. -/
theorem test_wrTxData :
    view (exec (.wrTxData 0xA5) State.reset) (fun s => (s.tx.txData, s.tx.txState, s.tx.strobe)) =
      some (0xA5, .setup, false) :=
  rfl

/-- V44-3: a byte at the HOLD edge is ignored. -/
theorem test_wrTxData_busy :
    view (exec (.wrTxData 0x5A) holding) (fun s => (s.tx.txData, s.tx.txState)) = some (0xA5, .idle) := rfl

/-- V45-2: only bit 0 counts. -/
theorem test_wrLed :
    view (exec (.wrLed 0xFE) { State.reset with gpio := { State.reset.gpio with caps := true } }) (·.gpio.caps) =
      some false :=
  rfl

/-- V45-3: both pulses start with count 79; V45-6: 0 starts none. -/
theorem test_wrPulse :
    view (exec (.wrPulse 0x03) State.reset) (fun s => (s.gpio.clrAct, s.gpio.clrCnt, s.gpio.rstAct, s.gpio.rstCnt)) =
      some (true, 79, true, 79) ∧
    view (exec (.wrPulse 0x00) State.reset) (fun s => (s.gpio.clrAct, s.gpio.rstAct)) = some (false, false) :=
  ⟨rfl, rfl⟩

/-- V45-5: a running generator is not started again while the other one starts. -/
theorem test_wrPulse_running :
    view (exec (.wrPulse 0x03) { State.reset with gpio := { State.reset.gpio with clrAct := true, clrCnt := 70 } })
      (fun s => (s.gpio.clrCnt, s.gpio.rstAct, s.gpio.rstCnt)) = some (69, true, 79) :=
  rfl

/-- V45-7's register values; the pins by R47, where bit 2 is TX_OE and bit 3 AUX_OE (log entry 18). -/
theorem test_wrPincfg :
    view (exec (.wrPincfg 0xF5) State.reset)
      (fun s => (s.gpio.pincfg, (outputs s).rowEn, (outputs s).colPuO, (outputs s).dataOut, (outputs s).capsLedO)) =
      some (0x5, some false, false, some 0, none) :=
  rfl

/-- V44-7: an active-low strobe pin is 1 while the strobe is off. -/
theorem test_strobe_polarity :
    (outputs { State.resetWith { Params.ref8 with strobeActiveHigh := false } with
      gpio := { State.reset.gpio with pincfg := 4 } }).strobeO = some true := rfl

/-- V46-2: a write of a reserved address is an edge with no transaction: the window and the scan go on. -/
theorem test_wrRsvdE :
    view (exec (.wrRsvdE 0xFF) { settling with clock := windowOpen.clock }) (fun s => (s.clock.clkWin, s.scan.scanCnt)) =
      some (3, 1) :=
  rfl

/-! ### Edges -/

/-- V41-6 at t11 and V41-5: with division 8, `psc` goes from 7 to 0 and the compare target 0 is met: a tick. -/
theorem test_tick_event :
    view (step (facing (tclkIn true) { counting with timer := { counting.timer with tCs := 2, psc := 7 } }))
      (fun s => (s.timer.psc, s.timer.tcnt, s.timer.tickTgl, s.chg.tickChg)) = some (0, 0, true, true) :=
  rfl

/-- V41-11: CS = 6 runs nothing. -/
theorem test_reserved_clock_select :
    view (step (facing (tclkIn true) { counting with timer := { counting.timer with tCs := 6, psc := 7 } }))
      (fun s => (s.timer.psc, s.timer.tickTgl)) = some (0, false) :=
  rfl

/-- V41-13: with an acknowledge and a commit at one edge, the new value goes out and CFG_BUSY stays 1. -/
theorem test_commit_at_acknowledge :
    view (exec (.wrTcfgImsk 0x02)
        { staged with config := { staged.config with reqTgl := true, cfgBusy := true, ackS1 := true, ackS2 := true } })
      (fun s => (s.config.reqTgl, s.config.cfgBusy, s.config.cfgPend, s.config.xferOcra)) = some (false, true, false, 124) :=
  rfl

/-- V44-5: with STROBE_CYCLES = 1 the strobe rises with count 0. -/
theorem test_strobe_rises :
    view (step (facing StepInput.quiet sending)) (fun s => (s.tx.strobe, s.tx.txCnt, s.tx.txState)) =
      some (true, 0, .active) :=
  rfl

/-! ### Witnesses: a concrete case that meets the hypotheses of each statement -/

theorem witness_DecodeEncodeAgree : decode 0x1FFF = .ok (.wrRsvdF 0xFF) ∧ decode 0x00FF = .ok .rdClkpr := ⟨rfl, rfl⟩

theorem witness_EveryWordSelectsOneTransaction :
    (0x1FFF#13).extractLsb' 8 5 = (0x1F00#13).extractLsb' 8 5 ∧ (0x0000#13).extractLsb' 8 5 = (0x00FF#13).extractLsb' 8 5 :=
  ⟨rfl, rfl⟩

theorem witness_ReadWordsIgnoreData : (Instr.rdClkpr).isWrite = false ∧ (Instr.rdRsvdF).isWrite = false := ⟨rfl, rfl⟩

/-- The first and the last word, and no transaction. -/
theorem witness_StepRunsDecodedTransaction :
    State.reset.params.Legal ∧
    busWord (tx .rdClkpr).bus = some 0x0000 ∧ decode 0x0000 = .ok .rdClkpr ∧ (Instr.rdClkpr).wellFormed = true ∧
    busWord (tx (.wrRsvdF 0xFF)).bus = some 0x1FFF ∧ decode 0x1FFF = .ok (.wrRsvdF 0xFF) ∧
    (facing (tx .rdClkpr) State.reset).input.edge = .hclk ∧ busWord StepInput.quiet.bus = none :=
  ⟨by decide, rfl, rfl, rfl, rfl, rfl, rfl, rfl⟩

/-- A write (with both strobes, too), a read and neither. -/
theorem witness_BusPinsPresentOneTransaction :
    State.reset.params.Legal ∧ (tx (.wrLed 1)).bus.wr = true ∧ (⟨5, 0, true, true⟩ : BusPins).wr = true ∧
    (tx .rdTick).bus.wr = false ∧ (tx .rdTick).bus.rd = true ∧
    StepInput.quiet.bus.wr = false ∧ StepInput.quiet.bus.rd = false ∧ StepInput.quiet.edge = .hclk :=
  ⟨by decide, rfl, rfl, rfl, rfl, rfl, rfl, rfl⟩

/-- One parameter just outside each constraint. -/
theorem witness_IllegalParametersFault :
    (∀ p ∈ [{ Params.ref8 with numRows := 17 }, { Params.ref8 with numCols := 9 },
        { Params.ref8 with settleCycles := 1 }, { Params.ref8 with strobeCycles := 0 },
        { Params.ref8 with pulseCycles := 79 }],
      ¬ (p.numRows ≤ 16 ∧ p.numCols ≤ 8 ∧ 2 ≤ p.settleCycles ∧ 1 ≤ p.strobeCycles ∧
        p.strobeCycles ≤ p.pulseCycles)) ∧
    ∃ r, step (State.resetWith { Params.ref8 with numRows := 17 }) = .fault r :=
  ⟨by decide, _, rfl⟩

theorem witness_LegalBlockNeverStops :
    short.params.Legal ∧ ∃ t, runInputs [tx (.wrLed 1), tclkIn true, resetIn] short = .next t := ⟨by decide, _, rfl⟩

/-- A read at an hclk edge, and a tclk edge. -/
theorem witness_HostReceivesBusRdata :
    (∃ t, step (facing (tx .rdTick) ticked) = .next t) ∧ ∃ t, step (facing (tclkIn true) counting) = .next t :=
  ⟨⟨_, rfl⟩, _, rfl⟩

theorem witness_EdgesKeepTheOtherDomain :
    ((facing (tx (.wrTcfgImsk 2)) staged).input.edge = .hclk ∧ ∃ t, step (facing (tx (.wrTcfgImsk 2)) staged) = .next t) ∧
    (facing (tclkIn true) counting).input.edge = .tclk ∧ ∃ t, step (facing (tclkIn true) counting) = .next t :=
  ⟨⟨rfl, _, rfl⟩, rfl, _, rfl⟩

/-- Busy at the capture edge; the last row in range; the first and the last out of range. -/
theorem witness_ScanCommandStartsClearsOrIsIgnored :
    scanning.scan.scanBusy = true ∧ State.reset.scan.scanBusy = false ∧
    (2#8).toNat < State.reset.params.numRows ∧ State.reset.params.numRows ≤ (3#8).toNat ∧
    State.reset.params.numRows ≤ (255#8).toNat := by
  decide

theorem witness_TxCommandAcceptedOnlyInIdle :
    State.reset.tx.txState = .idle ∧ sending.tx.txState ≠ .idle ∧ holding.tx.txState ≠ .idle := by decide

theorem witness_OnlyThePollReadHasASideEffect : (Instr.rdStatus).isWrite = false ∧ Instr.rdStatus ≠ .rdTick := by decide

/-- The window at 4 and at 0, with a write of another register. -/
theorem witness_PrescalerWindowCountsDown :
    (∀ s ∈ [facing (tx (.wrOcra 7)) windowOpen, facing StepInput.quiet State.reset], s.input.edge = .hclk) ∧
    (∃ t, step (facing (tx (.wrOcra 7)) windowOpen) = .next t) ∧ (∃ t, step (facing StepInput.quiet State.reset) = .next t) ∧
    transactionOf (tx (.wrOcra 7)) = some (.wrOcra 7) ∧ transactionOf StepInput.quiet = none :=
  ⟨by decide, ⟨_, rfl⟩, ⟨_, rfl⟩, rfl, rfl⟩

/-- A locked block that is written; a block whose only writes of CLKPR are refused, through a reset. -/
theorem witness_LockIsPermanentUntilReset :
    NoReset [tx (.wrClkpr 0x80)] ∧
    (∃ t, runInputs [tx (.wrClkpr 0x80)]
      { short with clock := { short.clock with clkps := 3, clkLock := true } } = .next t) ∧
    configurations [tx (.wrClkpr 0x03), tx (.wrClkpr 0x80), tx (.wrClkpr 0x09), resetIn]
      (State.resetWith shortParams) = 0 ∧
    (∃ t, runInputs [tx (.wrClkpr 0x03), tx (.wrClkpr 0x80), tx (.wrClkpr 0x09), resetIn]
      (State.resetWith shortParams) = .next t ∧ t.clock.clkLock = false) ∧
    configurations [tx (.wrClkpr 0x80), tx (.wrClkpr 0x08)] (State.resetWith shortParams) = 1 :=
  ⟨by decide, ⟨_, rfl⟩, rfl, ⟨_, rfl, rfl⟩, rfl⟩

/-- A poll, a commit and neither, at an hclk edge; a tclk edge. -/
theorem witness_TickFlagUpdate :
    transactionOf (tx .rdTick) = some .rdTick ∧ transactionOf (tx (.wrTcfgImsk 0)) = some (.wrTcfgImsk 0) ∧
    transactionOf StepInput.quiet = none ∧ (∃ t, step (facing (tx .rdTick) pulse) = .next t) ∧
    (∃ t, step (facing (tx (.wrTcfgImsk 0)) pulse) = .next t) ∧ (∃ t, step (facing StepInput.quiet pulse) = .next t) ∧
    ∃ t, step (facing (tclkIn true) pulse) = .next t :=
  ⟨rfl, rfl, rfl, ⟨_, rfl⟩, ⟨_, rfl⟩, ⟨_, rfl⟩, _, rfl⟩

theorem witness_TickSynchronizerChain :
    (∃ t, step (facing StepInput.quiet tickLeaving) = .next t) ∧ ∃ t, step (facing (tclkIn true) tickLeaving) = .next t :=
  ⟨⟨_, rfl⟩, _, rfl⟩

/-- A commit and none. -/
theorem witness_HandshakeHclkSide :
    transactionOf (tx (.wrTcfgImsk 2)) = some (.wrTcfgImsk 2) ∧ (∃ t, step (facing (tx (.wrTcfgImsk 2)) staged) = .next t) ∧
    transactionOf StepInput.quiet = none ∧ ∃ t, step (facing StepInput.quiet launched) = .next t :=
  ⟨rfl, ⟨_, rfl⟩, rfl, _, rfl⟩

theorem witness_OnlyCommitChangesTheWord :
    (facing (tx .rdOcra) staged).input.edge = .hclk ∧ (∃ t, step (facing (tx .rdOcra) staged) = .next t) ∧
    transactionOf (tx .rdOcra) = some .rdOcra :=
  ⟨rfl, ⟨_, rfl⟩, rfl⟩

theorem witness_ColumnSynchronizerAlwaysRuns :
    ∃ t, step (facing { StepInput.quiet with colIn := 0xFB } State.reset) = .next t := ⟨_, rfl⟩

/-- The settling count above 0 and at 0. -/
theorem witness_SettlingCountAndCapture :
    settling.scan.scanBusy = true ∧ settling.scan.scanCnt ≠ 0#8 ∧ scanning.scan.scanBusy = true ∧
    scanning.scan.scanCnt = 0#8 ∧ (∃ t, step (facing StepInput.quiet settling) = .next t) ∧
    ∃ t, step (facing StepInput.quiet scanning) = .next t :=
  ⟨rfl, by decide, rfl, rfl, ⟨_, rfl⟩, _, rfl⟩

theorem witness_IdleScannerHoldsItsRow :
    ticked.scan.scanBusy = false ∧ transactionOf (tx .rdRowScan) = some .rdRowScan ∧
    ∃ t, step (facing (tx .rdRowScan) ticked) = .next t :=
  ⟨rfl, rfl, _, rfl⟩

/-- Each state of the machine, ACTIVE with the count at 0 and at 1. -/
theorem witness_TransmitterStateMachine :
    (∃ t, step (facing StepInput.quiet sending) = .next t) ∧ (∃ t, step (facing StepInput.quiet holding) = .next t) ∧
    (∃ t, step (facing StepInput.quiet { short with tx := ⟨0xA5, .active, 0, true⟩ }) = .next t) ∧
    (∃ t, step (facing StepInput.quiet { short with tx := ⟨0xA5, .active, 1, true⟩ }) = .next t) ∧
    (∃ t, step (facing (tx .rdTxData) short) = .next t) ∧ transactionOf (tx .rdTxData) = some .rdTxData :=
  ⟨⟨_, rfl⟩, ⟨_, rfl⟩, ⟨_, rfl⟩, ⟨_, rfl⟩, ⟨_, rfl⟩, rfl⟩

/-- Both generators running, with the counts at 0 and at 1. -/
theorem witness_RunningPulsesCountDown :
    pulsing.gpio.clrAct = true ∧ pulsing.gpio.rstAct = true ∧ pulsing.gpio.clrCnt = 0#16 ∧
    (∃ t, step (facing StepInput.quiet pulsing) = .next t) ∧
    ∃ t, step (facing StepInput.quiet
      { pulsing with gpio := { pulsing.gpio with clrCnt := 1, rstCnt := 1 } }) = .next t :=
  ⟨rfl, rfl, rfl, ⟨_, rfl⟩, _, rfl⟩

theorem witness_LedEnablesAndIdlePulsesChangeOnlyByTheirWrites :
    short.gpio.clrAct = false ∧ short.gpio.rstAct = false ∧ transactionOf (tx .rdLed) = some .rdLed ∧
    ∃ t, step (facing (tx .rdLed) short) = .next t :=
  ⟨rfl, rfl, rfl, _, rfl⟩

/-- A load and none. -/
theorem witness_TclkLoadsTransferredConfiguration :
    (∃ t, step (facing (tclkIn true)
      { launched with timer := { launched.timer with reqS1 := true, reqS2 := true } }) = .next t) ∧
    counting.timer.reqS2 = counting.timer.reqS3 ∧ ∃ t, step (facing (tclkIn true) counting) = .next t :=
  ⟨⟨_, rfl⟩, rfl, _, rfl⟩

/-- Division 1 and division 1024 at their last count; a stopped timer. -/
theorem witness_TclkPrescalerAndCounter :
    counting.timer.reqS2 = counting.timer.reqS3 ∧
    (counting.timer.tCs.toNat, 1) ∈ [(0, 0), (1, 1), (2, 8), (3, 64), (4, 256), (5, 1024), (6, 0), (7, 0)] ∧
    (∃ t, step (facing (tclkIn true) counting) = .next t) ∧
    ((5#3).toNat, 1024) ∈ [(0, 0), (1, 1), (2, 8), (3, 64), (4, 256), (5, 1024), (6, 0), (7, 0)] ∧
    (∃ t, step (facing (tclkIn true)
      { counting with timer := { counting.timer with tCs := 5, psc := 1023 } }) = .next t) ∧
    ((0#3).toNat, 0) ∈ [(0, 0), (1, 1), (2, 8), (3, 64), (4, 256), (5, 1024), (6, 0), (7, 0)] ∧
    ∃ t, step (facing (tclkIn true) State.reset) = .next t :=
  ⟨rfl, by decide, ⟨_, rfl⟩, by decide, ⟨_, rfl⟩, by decide, _, rfl⟩

theorem witness_ResetStepSetsEveryElement :
    (facing resetIn pulsing).params.Legal ∧ (facing resetIn pulsing).input.edge = .reset := ⟨by decide, rfl⟩

theorem witness_ResetReadValues :
    shortParams.Legal ∧ (Instr.rdClkpr).isWrite = false ∧ (Instr.rdRsvdF).isWrite = false := by decide

theorem witness_OutputsAfterReset :
    (facing resetIn pulsing).input.edge = .reset ∧
    ∃ t, step (facing resetIn pulsing) = .next t ∧ t.input.bus.rd = false :=
  ⟨rfl, _, rfl, rfl⟩

/-- Each enable at 0 and at 1; the largest division of clk_sys; a read, a write, both strobes and neither on the bus. -/
theorem witness_PinsFollowFlopsAndEnables :
    State.reset.gpio.pincfg = 0x0 ∧ { State.reset.gpio with pincfg := 0xF }.pincfg.getLsbD 3 = true ∧
    (outputs { State.reset with clock := { State.reset.clock with clkps := 8 } }).clkSysDivision = 256 ∧
    (tx .rdTick).bus.rd = true ∧ (tx .rdTick).bus.wr = false ∧ (Instr.rdTick).isWrite = false ∧
    (Instr.rdTick).addr = (tx .rdTick).bus.addr ∧
    (∃ t, exec .rdTick (facing (tx .rdTick) ticked) = .next t ∧ t.rdata = 0x01) ∧
    (tx (.wrTick 0)).bus.wr = true ∧ (⟨5, 0, true, true⟩ : BusPins).wr = true ∧ StepInput.quiet.bus.rd = false :=
  ⟨rfl, rfl, rfl, rfl, rfl, rfl, rfl, ⟨_, rfl, rfl⟩, rfl, rfl, rfl⟩

/-- An hclk edge with a read of STATUS, and a tclk edge. -/
theorem witness_TickIrqHoldsUntilCleared :
    (outputs ticked).tickIrq = true ∧ transactionOf (tx .rdStatus) = some .rdStatus ∧
    (∃ t, step (facing (tx .rdStatus) ticked) = .next t) ∧ ∃ t, step (facing (tclkIn true) ticked) = .next t :=
  ⟨rfl, rfl, ⟨_, rfl⟩, _, rfl⟩

theorem witness_BlockInvariantKept :
    BlockInv (facing (tx (.wrRowScan 1)) short) ∧ ∃ t, step (facing (tx (.wrRowScan 1)) short) = .next t :=
  ⟨⟨by decide, by decide, by decide, by decide, by decide⟩, _, rfl⟩

theorem witness_BlockInvariantAtReset : Params.ref8.Legal ∧ shortParams.Legal := by decide

theorem witness_ReachableStatesMeetInvariants :
    shortParams.Legal ∧ ∃ s, runInputs [tx (.wrRowScan 1), tclkIn true] (State.resetWith shortParams) = .next s :=
  ⟨by decide, _, rfl⟩

theorem witness_TransferStableWhileRequested :
    HandshakeOrder launched ∧ launched.config.reqTgl ≠ launched.timer.ackTgl ∧
    ∃ t, step (facing (tx (.wrTcfgImsk 2)) launched) = .next t :=
  ⟨by decide, by decide, _, rfl⟩

theorem witness_ConfigIdleMeansLoaded :
    shortParams.Legal ∧
    ∃ s, runInputs [tx (.wrOcra 7), tclkIn true] (State.resetWith shortParams) = .next s ∧ s.config.cfgBusy = false :=
  ⟨by decide, _, rfl, rfl⟩

/-- Three tclk edges with a new draw, and four with an old one. -/
theorem witness_TransferLoadsAtThirdOrFourthEdge :
    HandshakeOrder launched ∧ launched.chg.reqChg = true ∧
    NoReset [tclkIn true, StepInput.quiet, tclkIn true, tclkIn true] ∧
    (tclkInputs [tclkIn true, StepInput.quiet, tclkIn true, tclkIn true]).length = 3 ∧
    (∃ t, runInputs [tclkIn true, StepInput.quiet, tclkIn true, tclkIn true] launched = .next t) ∧
    (tclkInputs [tclkIn false, tclkIn true, tclkIn true, tclkIn true]).length = 4 ∧
    ∃ t, runInputs [tclkIn false, tclkIn true, tclkIn true, tclkIn true] launched = .next t :=
  ⟨by decide, rfl, by decide, by decide, ⟨_, rfl⟩, by decide, _, rfl⟩

/-- The whole transfer, `STROBE_CYCLES + 2` edges, with a transaction and a tclk edge between. -/
theorem witness_StrobeHasExactWidth :
    sending.params.Legal ∧ sending.tx.txState = .setup ∧ sending.tx.strobe = false ∧
    NoReset [StepInput.quiet, tclkIn true, tx (.wrTxData 0x5A), StepInput.quiet] ∧
    (hclkInputs [StepInput.quiet, tclkIn true, tx (.wrTxData 0x5A), StepInput.quiet]).length =
      sending.params.strobeCycles + 2 ∧
    ∃ t, runInputs [StepInput.quiet, tclkIn true, tx (.wrTxData 0x5A), StepInput.quiet] sending = .next t :=
  ⟨by decide, rfl, rfl, by decide, by decide, _, rfl⟩

/-- The whole pulse, and none of it. -/
theorem witness_PulseHasExactWidth :
    pulsing.params.Legal ∧ NoReset [tclkIn true, StepInput.quiet] ∧
    (hclkInputs [tclkIn true, StepInput.quiet]).length = pulsing.params.pulseCycles ∧
    pulsing.gpio.clrAct = true ∧ pulsing.gpio.clrCnt = BitVec.ofNat 16 (pulsing.params.pulseCycles - 1) ∧
    pulsing.gpio.rstAct = true ∧ pulsing.gpio.rstCnt = BitVec.ofNat 16 (pulsing.params.pulseCycles - 1) ∧
    (∃ t, runInputs [tclkIn true, StepInput.quiet] pulsing = .next t) ∧ ∃ t, runInputs [] pulsing = .next t :=
  ⟨by decide, by decide, by decide, rfl, rfl, rfl, rfl, ⟨_, rfl⟩, _, rfl⟩

/-- The last settling edge, and the capture one edge later. -/
theorem witness_ScanCapturesTheSettledSample :
    settling.params.Legal ∧ settling.scan.scanBusy = true ∧
    settling.scan.scanCnt = BitVec.ofNat 8 settling.params.settleCycles ∧
    NoReset [StepInput.quiet, StepInput.quiet, tclkIn true, StepInput.quiet] ∧
    (hclkInputs [StepInput.quiet, StepInput.quiet, tclkIn true, StepInput.quiet]).length =
      settling.params.settleCycles + 1 ∧
    (∃ t, runInputs [StepInput.quiet, StepInput.quiet] settling = .next t) ∧
    ∃ t, runInputs [StepInput.quiet, StepInput.quiet, tclkIn true, StepInput.quiet] settling = .next t :=
  ⟨by decide, rfl, rfl, by decide, by decide, ⟨_, rfl⟩, _, rfl⟩

/-- The change write at the fourth and at the fifth edge, of the largest prescaler value. -/
theorem witness_PrescalerWindowLastsFourEdges :
    windowOpen.clock.clkLock = false ∧ windowOpen.clock.clkWin = 4#3 ∧ (8#8).toNat ≤ 8 ∧
    NoReset (List.replicate 4 StepInput.quiet) ∧ transactionOf StepInput.quiet = none ∧
    (∃ t, runInputs (List.replicate 3 StepInput.quiet) windowOpen = .next t ∧ ∃ u, exec (.wrClkpr 8) t = .next u) ∧
    ∃ t, runInputs (List.replicate 4 StepInput.quiet) windowOpen = .next t ∧ ∃ u, exec (.wrClkpr 8) t = .next u :=
  ⟨rfl, rfl, by decide, by decide, rfl, ⟨_, rfl, _, rfl⟩, _, rfl, _, rfl⟩

/-- Right after the load edge, CFG_BUSY still 1; no edge, and one whole period of one edge, with a write of TCFG_IMSK on a
bus that no hclk edge samples. -/
theorem witness_TickPeriodIsExact :
    running justLoaded.timer = true ∧ justLoaded.timer.psc = 0#10 ∧ justLoaded.timer.tcnt = 0#8 ∧
    HandshakeOrder justLoaded ∧ justLoaded.config.cfgBusy = true ∧ justLoaded.config.reqTgl = justLoaded.timer.ackTgl ∧
    justLoaded.config.cfgPend = false ∧ NoReset [StepInput.quiet, { tx (.wrTcfgImsk 0) with edge := .tclk }] ∧
    transactionOf StepInput.quiet = none ∧ (∃ t, runInputs [] justLoaded = .next t) ∧
    ∃ t, runInputs [StepInput.quiet, { tx (.wrTcfgImsk 0) with edge := .tclk }] justLoaded = .next t :=
  ⟨by decide, rfl, rfl, by decide, rfl, rfl, rfl, by decide, rfl, ⟨_, rfl⟩, _, rfl⟩

/-- A draw of the new value with the pulse at the third edge, and of the old one with the pulse at the fourth; tclk edges
between that are no tick event. -/
theorem witness_TickPulseAtThirdOrFourthEdge :
    tickLeaving.chg.tickChg = true ∧ tickLeaving.tick.tickS1 = (!tickLeaving.timer.tickTgl) ∧
    tickLeaving.tick.tickS2 = (!tickLeaving.timer.tickTgl) ∧ tickLeaving.tick.tickS3 = (!tickLeaving.timer.tickTgl) ∧
    NoReset [tclkIn true, drawIn true, tclkIn true, StepInput.quiet] ∧
    tickEvents [tclkIn true, drawIn true, tclkIn true, StepInput.quiet] tickLeaving = 0 ∧
    (hclkInputs [tclkIn true, drawIn true, tclkIn true, StepInput.quiet]).length = 2 ∧
    (∃ t, runInputs [tclkIn true, drawIn true, tclkIn true, StepInput.quiet] tickLeaving = .next t) ∧
    tickEvents [drawIn false, StepInput.quiet, tclkIn true, StepInput.quiet] tickLeaving = 0 ∧
    (hclkInputs [drawIn false, StepInput.quiet, tclkIn true, StepInput.quiet]).length = 3 ∧
    ∃ t, runInputs [drawIn false, StepInput.quiet, tclkIn true, StepInput.quiet] tickLeaving = .next t :=
  ⟨rfl, rfl, rfl, rfl, by decide, rfl, by decide, ⟨_, rfl⟩, rfl, by decide, _, rfl⟩

/-- A tclk edge with a tick event, and the hclk edge after it. -/
theorem witness_EveryTickEventMakesOnePulse :
    tickEvent counting = true ∧ counting.tick.tickS1 = counting.timer.tickTgl ∧
    (∃ t, step (facing (tclkIn true) counting) = .next t) ∧
    tickLeaving.chg.tickChg = true ∧ tickLeaving.tick.tickS1 ≠ tickLeaving.timer.tickTgl ∧
    ∃ t, step (facing StepInput.quiet tickLeaving) = .next t :=
  ⟨rfl, rfl, ⟨_, rfl⟩, rfl, by decide, _, rfl⟩

/-- Polls at a pulse edge and after it; the flag 0 at both ends. -/
theorem witness_PollsReturnOneOncePerPulse :
    pulse.config.tcfgImsk.getLsbD 1 = true ∧ NoReset [tx .rdTick, tx .rdTick] ∧
    transactionOf (tx .rdTick) = some .rdTick ∧ polledInTime pulse.tick.tickPend [tx .rdTick, tx .rdTick] pulse = true ∧
    pulseEdges [tx .rdTick, tx .rdTick] pulse = 1 ∧ ∃ t, runInputs [tx .rdTick, tx .rdTick] pulse = .next t :=
  ⟨rfl, by decide, rfl, rfl, rfl, _, rfl⟩

theorem witness_OutputEnablesChangeOnlyPins :
    (∃ t, step (facing (tx (.wrLed 1)) pulsing) = .next t) ∧
    ∃ u, step { facing (tx (.wrLed 1)) pulsing with
      gpio := { (facing (tx (.wrLed 1)) pulsing).gpio with pincfg := 0xF } } = .next u :=
  ⟨⟨_, rfl⟩, _, rfl⟩

/-- The same scanner beside two transmitters, and the same transmitter beside two scanners. -/
theorem witness_ScannerAndTransmitterAreIndependent :
    settling.params = sending.params ∧ short.params = sending.params ∧ short.scan = sending.scan ∧
    short.tx = settling.tx ∧ (∃ t, step (facing StepInput.quiet settling) = .next t) ∧
    (∃ t, step (facing StepInput.quiet sending) = .next t) ∧ ∃ t, step (facing StepInput.quiet short) = .next t :=
  ⟨rfl, rfl, rfl, rfl, ⟨_, rfl⟩, ⟨_, rfl⟩, _, rfl⟩

/-- Key (1, 2) is down, row 1 is being scanned, K_ENV = 1 and SETTLE_CYCLES = 2, its least. -/
def scanSystem : System where
  block := { settling with gpio := { settling.gpio with pincfg := 0x3 } }
  host := HostAgent.start [.rd .status]
  env := { pressed := [0x00, 0x04, 0x00], kEnv := 1, moves := [] }

/-- Three hclk edges and a tclk edge. -/
def scanMoves : List Move := [.hclk 0 true true, .tclk true, .hclk 0 true true, .hclk 0 true true]

theorem witness_ScanReadsOnlyItsRow :
    scanSystem.block.params.Legal ∧ scanSystem.block.scan.scanBusy = true ∧ scanSystem.block.scan.rowValid = true ∧
    scanSystem.block.scan.scanCnt = BitVec.ofNat 8 scanSystem.block.params.settleCycles ∧
    rowOe scanSystem.block.gpio = true ∧ colPu scanSystem.block.gpio = true ∧ 1 ≤ scanSystem.env.kEnv ∧
    scanSystem.env.kEnv + 1 ≤ scanSystem.block.params.settleCycles ∧ scanSystem.env.moves = [] ∧
    scanSystem.host.todo = [.read 0x6] ∧
    (scanMoves.filter (fun m => match m with | .hclk _ _ _ => true | _ => false)).length =
      scanSystem.block.params.settleCycles + 1 ∧
    ∃ z, scanSystem.run scanMoves = .next z ∧ z.block.scan.colData = 0x04 :=
  ⟨by decide, rfl, rfl, rfl, rfl, rfl, by decide, by decide, rfl, rfl, by decide, _, rfl, rfl⟩

end Sys2Proof.Tests
end

section
/-! PROOFS. Family 00_scope.md: the decoder is total, so a legal block never stops; illegal parameters fault; and the
value of every output pin. -/

namespace Sys2Proof

/-! ### The decoder is total (30_encoding.md R112) -/

/-- W and A of a word in their places, every other bit 0 (R110). -/
def selectBits (w : TxWord) : TxWord := (w.extractLsb' 8 5).setWidth 13 <<< 8

theorem and_rowMask_eq_selectBits (w : TxWord) : w &&& 0x1F00 = selectBits w := by
  apply BitVec.eq_of_getLsbD_eq
  intro k hk
  interval_cases k <;> simp [selectBits]

/-- The map of R113 has a row for each of the 32 values of W and A. -/
theorem exists_row_of_field : ∀ f : Fin 32, ∃ r ∈ opcodeRows,
    r.mask = 0x1F00#13 ∧ r.pattern = (BitVec.ofFin (w := 5) f).setWidth 13 <<< 8 := by
  decide

theorem exists_row_selects (w : TxWord) : ∃ r ∈ opcodeRows, r.selects w = true := by
  obtain ⟨r, hr, hmask, hpat⟩ := exists_row_of_field (w.extractLsb' 8 5).toFin
  refine ⟨r, hr, ?_⟩
  rw [OpcodeRow.selects, hmask, hpat, beq_iff_eq]
  exact and_rowMask_eq_selectBits w

theorem decode_total (w : TxWord) : ∃ i, decode w = .ok i := by
  obtain ⟨r, hr⟩ := Option.isSome_iff_exists.1 (List.find?_isSome.2 (exists_row_selects w))
  exact ⟨r.make (wordData w), by simp [decode, hr]⟩

/-- The constraints of R12 that bound the sizes and the cycle counts are among those of a legal parameter set. -/
theorem Params.Legal.constraints {p : Params} (h : p.Legal) :
    p.numRows ≤ 16 ∧ p.numCols ≤ 8 ∧ 2 ≤ p.settleCycles ∧ 1 ≤ p.strobeCycles ∧ p.strobeCycles ≤ p.pulseCycles := by
  obtain ⟨-, -, -, ⟨-, hrows⟩, ⟨-, hcols⟩, ⟨hsettle, -⟩, ⟨hstrobe, -⟩, -, hpulse, -⟩ := h
  exact ⟨hrows, hcols, hsettle, hstrobe, hpulse⟩

namespace Machine

/-! ### A step stops exactly at illegal parameters (00_scope.md R9, R12; 60_exceptions.md R320) -/

theorem hclkStep_eq_hclkWith (s : State) : hclkStep s = .next (hclkWith (transactionOf s.input) s) := by
  unfold hclkStep transactionOf
  cases busWord s.input.bus with
  | none => simp [hclkEdge_eq_hclkWith]
  | some w =>
    obtain ⟨i, hi⟩ := decode_total w
    simp [hi, Except.toOption, exec_eq_hclkWith]

theorem edgeStep_total (s : State) : ∃ u, edgeStep s = .next u := by
  unfold edgeStep
  cases s.input.edge with
  | hclk => exact ⟨_, hclkStep_eq_hclkWith s⟩
  | tclk => exact ⟨_, rfl⟩
  | reset => exact ⟨_, rfl⟩

theorem step_of_not_legal {s : State} (h : ¬ s.params.Legal) : step s = .fault .illegalParameters := if_neg h

theorem step_total_of_legal {s : State} (h : s.params.Legal) : ∃ t, step s = .next t := by
  obtain ⟨u, hu⟩ := edgeStep_total s
  exact ⟨nextInput u, by rw [step, if_pos h, hu, mapNext]⟩

@[simp] theorem hclkWith_params (o : Option Instr) (s : State) : (hclkWith o s).params = s.params := rfl

theorem step_params {s t : State} (h : step s = .next t) : t.params = s.params := by
  obtain ⟨-, rfl⟩ | ⟨-, rfl⟩ | ⟨-, rfl⟩ := step_cases h
  · rw [nextInput_params, hclkWith_params]
  · rw [nextInput_params, tclkEdge_params]
  · rw [nextInput_params, resetStep_params]

theorem runInputs_cons_of_step {i : StepInput} {s u : State} (h : step (s.withInput i) = .next u)
    (is : List StepInput) : runInputs (i :: is) s = runInputs is u := by
  simp [runInputs, h]

/-- Settles O8, by induction on the inputs: one step of a legal block answers a block with the same parameters. -/
theorem legalBlockNeverStops : Obligations.LegalBlockNeverStops := by
  intro is
  induction is with
  | nil => exact fun s _ => ⟨s, rfl, rfl⟩
  | cons i is ih =>
    intro s hs
    obtain ⟨u, hu⟩ := step_total_of_legal (s := s.withInput i) hs
    have hus : u.params = s.params := (step_params hu).trans (withInput_params s i)
    obtain ⟨t, ht, htu⟩ := ih u (hus ▸ hs)
    exact ⟨t, (runInputs_cons_of_step hu is).trans ht, htu.trans hus⟩

/-- Settles O7: `Params.Legal` asks for each of the five constraints. -/
theorem illegalParametersFault : Obligations.IllegalParametersFault :=
  fun _ hbad => step_of_not_legal fun hlegal => hbad hlegal.constraints

/-! ### The pins (10_state.md R58, 00_scope.md R17) -/

@[simp] theorem driven_true {α : Type} (v : α) : driven true v = some v := rfl

@[simp] theorem driven_false {α : Type} (v : α) : driven false v = none := rfl

/-- A pin is 1 where the signal agrees with the pin's active level (R17). -/
theorem pinLevel_eq_beq (activeHigh asserted : Bool) : pinLevel activeHigh asserted = (asserted == activeHigh) := by
  cases activeHigh <;> simp [pinLevel]

theorem exec_read_rdata {i : Instr} {s t : State} (hread : i.isWrite = false) (h : exec i s = .next t) :
    t.rdata = readValue i.addr s := by
  rw [exec_eq_hclkWith, Host.Outcome.next.injEq] at h
  simp [← h, hclkWith, rdataAt, hread]

theorem busRdata_of_read {s : State} (hrd : s.input.bus.rd = true) (hwr : s.input.bus.wr = false) :
    busRdata s = readValue s.input.bus.addr s := by
  simp [busRdata, hrd, hwr]

theorem busRdata_of_no_read {s : State} (h : s.input.bus.rd = false ∨ s.input.bus.wr = true) : busRdata s = 0#8 := by
  obtain h | h := h <;> simp [busRdata, h]

/-- Settles O42, group by group: each enable at 0 and at 1, the pins that are always driven, and `bus_rdata`. -/
theorem pinsFollowFlopsAndEnables : Obligations.PinsFollowFlopsAndEnables := by
  intro s
  refine ⟨outputs s, rfl, fun hoff => ?rowOff, fun hon => ?rowOn, fun hoff => ?txOff, fun hon => ?txOn,
    fun hoff => ?auxOff, fun hon => ?auxOn, rfl, rfl, rfl, fun hrd hwr i t hread haddr hexec => ?busRead,
    busRdata_of_no_read⟩
  case rowOff => simp only [outputs, rowOe, hoff, driven_false, and_self]
  case rowOn => simp only [outputs, rowOe, hon, driven_true, and_self]
  case txOff => simp only [outputs, txOe, hoff, driven_false, and_self]
  case txOn => simp only [outputs, txOe, hon, driven_true, pinLevel_eq_beq, and_self]
  case auxOff => simp only [outputs, auxOe, hoff, driven_false, and_self]
  case auxOn => simp only [outputs, auxOe, hon, driven_true, pinLevel_eq_beq, and_self]
  case busRead =>
    calc busRdata s
      _ = readValue s.input.bus.addr s := busRdata_of_read hrd hwr
      _ = readValue i.addr s := by rw [haddr]
      _ = t.rdata := (exec_read_rdata hread hexec).symm

end Machine
end Sys2Proof
end

section
/-! PROOFS. Family 10_state.md: the invariants of the block at reset, at every step and in every reachable state; the
frame between the two clock domains; and the read of STATUS. -/

namespace Sys2Proof.Machine

/-! ### The frame between the domains (10_state.md R33, 20_memory.md R81) -/

@[simp] theorem hclkWith_timer (o : Option Instr) (s : State) : (hclkWith o s).timer = s.timer := rfl

/-- Settles O10: each edge's equation, and the parts that it names. -/
theorem edgesKeepTheOtherDomain : Obligations.EdgesKeepTheOtherDomain := by
  intro s t h
  refine ⟨fun he => ?hclk, fun he => ?tclk⟩
  case hclk => rw [step_hclk he h, nextInput_timer, hclkWith_timer]
  case tclk => simp [step_tclk he h]

/-! ### The read of STATUS (10_state.md R42) -/

theorem getLsbD_append_ofBool {n : Nat} (x : BitVec n) (b : Bool) (k : Nat) :
    (x ++ BitVec.ofBool b).getLsbD k = if k = 0 then b else x.getLsbD (k - 1) := by
  cases k with
  | zero => simp [BitVec.getLsbD_append, -BitVec.getLsbD_eq_getElem]
  | succ k => simp [BitVec.getLsbD_append]

theorem statusByte_bits (s : State) :
    (statusByte s).getLsbD 7 = false ∧ (statusByte s).getLsbD 6 = false ∧
    (statusByte s).getLsbD 5 = s.gpio.rstAct ∧ (statusByte s).getLsbD 4 = s.gpio.clrAct ∧
    (statusByte s).getLsbD 3 = txBusy s.tx ∧ (statusByte s).getLsbD 2 = s.scan.scanBusy ∧
    (statusByte s).getLsbD 1 = s.config.cfgBusy ∧ (statusByte s).getLsbD 0 = s.tick.tickPend := by
  unfold statusByte
  simp [getLsbD_append_ofBool, -BitVec.getLsbD_eq_getElem]

theorem txBusy_eq_decide (t : TxPart) : txBusy t = decide (t.txState ≠ .idle) := by
  cases h : t.txState <;> simp [txBusy, h]

/-- Settles O13: the arm of RD_STATUS is a read of `statusByte`. -/
theorem statusReadCompletes : Obligations.StatusReadCompletes := by
  intro s
  have hbits := statusByte_bits s
  rw [txBusy_eq_decide] at hbits
  exact ⟨readEdge (statusByte s) s, rfl, rfl, hbits⟩

/-! ### Row and column masks -/

theorem rowOnes_getLsbD {p : Params} {k : Nat} (hk : k < 16) : (rowOnes p).getLsbD k = decide (k < p.numRows) := by
  rw [rowOnes, BitVec.getLsbD_ofNat, Nat.testBit_two_pow_sub_one, decide_eq_true hk, Bool.true_and]

theorem rowOneHot_getLsbD {p : Params} {r k : Nat} (hk : k < 16) :
    (rowOneHot p r).getLsbD k = decide (k < p.numRows ∧ k ≠ r) := by
  have hone : (1#16 <<< r).getLsbD k = decide (k = r) := by
    rw [← BitVec.twoPow_eq, BitVec.getLsbD_twoPow]
    grind
  rw [rowOneHot, BitVec.getLsbD_and, BitVec.getLsbD_not, rowOnes_getLsbD hk, hone, decide_eq_true hk]
  simp

/-- A capture has 0 in the bits of no real column (43_row_scan.md R236). -/
theorem capturedColumns_getLsbD {p : Params} {c : Byte} {k : Nat} (hk : p.numCols ≤ k) :
    (capturedColumns p c).getLsbD k = false := by
  have hmask : (columnMask p).getLsbD k = false := by
    simp [columnMask, BitVec.getLsbD_ofNat, Nat.testBit_two_pow_sub_one, hk]
  simp [capturedColumns, hmask]

/-! ### Reset (70_reset_and_hazards.md R350) -/

theorem stateInvariants_resetWith (p : Params) : StateInvariants (State.resetWith p) := by
  exact ⟨fun _ => rfl, fun _ => ⟨rfl, rfl⟩, fun _ => rfl, fun _ => rfl, fun _ => rfl, nofun, nofun,
    ⟨fun _ k hk => rowOnes_getLsbD hk, nofun⟩, fun k _ _ => BitVec.getLsbD_zero⟩

theorem handshakeOrder_resetWith (p : Params) : HandshakeOrder (State.resetWith p) :=
  ⟨rfl, rfl, nofun, nofun, nofun⟩

theorem transferred_eq_committed_reset : transferredTimer .reset = committedTimer .reset := by decide

/-- Settles O45: every clause holds of the reset values. -/
theorem blockInvariantAtReset : Obligations.BlockInvariantAtReset :=
  fun p hp => ⟨hp, stateInvariants_resetWith p, ⟨nofun, nofun, nofun⟩, handshakeOrder_resetWith p,
    fun _ => transferred_eq_committed_reset, fun _ => rfl⟩

/-! ### What an hclk edge does to each part -/

theorem clockAt_cases (o : Option Instr) (s : State) :
    clockAt o s = windowCountdown s.clock ∨ ∃ d, clockAt o s = clkprWrite d s.clock := by
  unfold clockAt
  split
  · exact .inr ⟨_, rfl⟩
  · exact .inl rfl

/-- The scanner runs by itself, starts the scan of a row in range, or clears the result for a row out of range
(43_row_scan.md R232 to R235). -/
theorem scanAt_cases (o : Option Instr) (s : State) :
    scanAt o s = scanEdge s ∨
    (∃ r < s.params.numRows, scanAt o s =
      { scanEdge s with
        rowSel := BitVec.ofNat 4 r
        rowValid := true
        rowOhN := rowOneHot s.params r
        scanCnt := BitVec.ofNat 8 s.params.settleCycles
        scanBusy := true }) ∨
    scanAt o s = { scanEdge s with colData := 0#8 } := by
  unfold scanAt
  split
  · next d =>
    unfold scanCommand
    split
    · exact .inl rfl
    · split
      · next hr => exact .inr (.inl ⟨_, hr, rfl⟩)
      · exact .inr (.inr rfl)
  · exact .inl rfl

/-- The scanner by itself waits, captures at the end of the settling count, or counts down (R235, R236). -/
theorem scanEdge_cases (s : State) :
    (s.scan.scanBusy = false ∧ scanEdge s = sampleColumns s.input.colIn s.scan) ∨
    (s.scan.scanBusy = true ∧ s.scan.scanCnt = 0#8 ∧ scanEdge s =
      { sampleColumns s.input.colIn s.scan with
        colData := capturedColumns s.params s.scan.colS2
        scanBusy := false }) ∨
    (s.scan.scanBusy = true ∧ scanEdge s =
      { sampleColumns s.input.colIn s.scan with scanCnt := s.scan.scanCnt - 1#8 }) := by
  cases hb : s.scan.scanBusy
  · simp [scanEdge, hb]
  · by_cases hc : s.scan.scanCnt = 0#8 <;> simp [scanEdge, hb, hc]

/-- The scanner by itself never moves to another row. -/
theorem scanEdge_row (s : State) :
    (scanEdge s).rowSel = s.scan.rowSel ∧ (scanEdge s).rowValid = s.scan.rowValid ∧
    (scanEdge s).rowOhN = s.scan.rowOhN := by
  obtain ⟨-, h⟩ | ⟨-, -, h⟩ | ⟨-, h⟩ := scanEdge_cases s <;> rw [h] <;> exact ⟨rfl, rfl, rfl⟩

/-- The transmitter runs by itself, or an idle one takes a byte (44_strobe_tx.md R261). -/
theorem txAt_cases (o : Option Instr) (s : State) :
    txAt o s = txEdge s ∨
    ∃ d, s.tx.txState = .idle ∧ txAt o s = { s.tx with txData := d, txState := .setup } := by
  unfold txAt
  split
  · next d =>
    by_cases hi : s.tx.txState = .idle
    · exact .inr ⟨d, hi, by simp [txCommand, txBusy, hi]⟩
    · exact .inl (txCommand_busy hi)
  · exact .inl rfl

/-- The transmitter by itself, state by state (R263 to R265). -/
theorem txEdge_cases (s : State) :
    (s.tx.txState = .idle ∧ txEdge s = s.tx) ∨
    (s.tx.txState = .setup ∧ txEdge s =
      { s.tx with strobe := true, txCnt := BitVec.ofNat 16 (s.params.strobeCycles - 1), txState := .active }) ∨
    (s.tx.txState = .active ∧ s.tx.txCnt = 0#16 ∧ txEdge s = { s.tx with strobe := false, txState := .hold }) ∨
    (s.tx.txState = .active ∧ s.tx.txCnt ≠ 0#16 ∧ txEdge s = { s.tx with txCnt := s.tx.txCnt - 1#16 }) ∨
    (s.tx.txState = .hold ∧ txEdge s = { s.tx with txState := .idle }) := by
  cases hs : s.tx.txState with
  | idle => simp [txEdge, hs]
  | setup => simp [txEdge, hs]
  | active => by_cases hc : s.tx.txCnt = 0#16 <;> simp [txEdge, hs, hc]
  | hold => simp [txEdge, hs]

/-- Whatever the transaction, both pulse generators step as at a WR_PULSE with some start bits (45_gpio.md R284,
R285). -/
theorem gpioAt_eq_gpioPulse (o : Option Instr) (s : State) :
    ∃ clr rst caps pincfg, gpioAt o s = { gpioPulse clr rst s with caps := caps, pincfg := pincfg } := by
  unfold gpioAt
  split
  · exact ⟨false, false, _, _, rfl⟩
  · exact ⟨_, _, _, _, rfl⟩
  · exact ⟨false, false, _, _, rfl⟩
  · exact ⟨false, false, _, _, rfl⟩

/-! ### The invariants of R60 at an hclk edge -/

theorem pulseEdge_idle {act : Bool} {cnt : BitVec 16} (h : act = false → cnt = 0#16)
    (hidle : (pulseEdge act cnt).1 = false) : (pulseEdge act cnt).2 = 0#16 := by
  cases act
  · exact h rfl
  · by_cases hc : cnt = 0#16
    · simp [pulseEdge, hc]
    · simp [pulseEdge, hc] at hidle

theorem pulseStart_idle {p : Params} {start act : Bool} {cnt : BitVec 16} (h : act = false → cnt = 0#16)
    (hidle : (pulseStart p start act cnt).1 = false) : (pulseStart p start act cnt).2 = 0#16 := by
  obtain ⟨-, -, hs⟩ | hs := pulseStart_cases p start act cnt
  · simp [hs] at hidle
  · rw [hs] at hidle ⊢
    exact pulseEdge_idle h hidle

section
variable {s : State} (o : Option Instr)

theorem clrIdleInv_hclkWith (h : ClrIdleInv s) : ClrIdleInv (hclkWith o s) := by
  obtain ⟨clr, rst, caps, pincfg, hg⟩ := gpioAt_eq_gpioPulse o s
  simp only [ClrIdleInv, hclkWith, hg, gpioPulse]
  exact pulseStart_idle h

theorem rstIdleInv_hclkWith (h : RstIdleInv s) : RstIdleInv (hclkWith o s) := by
  obtain ⟨clr, rst, caps, pincfg, hg⟩ := gpioAt_eq_gpioPulse o s
  simp only [RstIdleInv, hclkWith, hg, gpioPulse]
  exact pulseStart_idle h

theorem scanIdleInv_scanEdge (h : ScanIdleInv s) (hidle : (scanEdge s).scanBusy = false) :
    (scanEdge s).scanCnt = 0#8 := by
  obtain ⟨hb, he⟩ | ⟨-, hc, he⟩ | ⟨hb, he⟩ := scanEdge_cases s
  · rw [he]
    exact h hb
  · rw [he]
    exact hc
  · rw [he] at hidle
    exact absurd (hb.symm.trans hidle) (by decide)

theorem scanIdleInv_hclkWith (h : ScanIdleInv s) : ScanIdleInv (hclkWith o s) := by
  obtain he | ⟨r, -, he⟩ | he := scanAt_cases o s <;> simp only [ScanIdleInv, hclkWith, he]
  · exact scanIdleInv_scanEdge h
  · exact nofun
  · exact scanIdleInv_scanEdge h

theorem rowInv_hclkWith (hp : s.params.numRows ≤ 16) (h : RowInv s) : RowInv (hclkWith o s) := by
  obtain ⟨hsel, hvalid, hoh⟩ := scanEdge_row s
  obtain he | ⟨r, hr, he⟩ | he := scanAt_cases o s <;> simp only [RowInv, hclkWith, he]
  · rw [hsel, hvalid, hoh]
    exact h
  · have hrow : (BitVec.ofNat 4 r).toNat = r := by rw [BitVec.toNat_ofNat]; omega
    rw [hrow]
    exact ⟨nofun, fun _ => ⟨hr, fun k hk => rowOneHot_getLsbD hk⟩⟩
  · rw [hsel, hvalid, hoh]
    exact h

theorem colInv_scanEdge (h : ColInv s) {k : Nat} (hk : k < 8) (hcol : s.params.numCols ≤ k) :
    (scanEdge s).colData.getLsbD k = false := by
  obtain ⟨-, he⟩ | ⟨-, -, he⟩ | ⟨-, he⟩ := scanEdge_cases s <;> rw [he]
  · exact h k hk hcol
  · exact capturedColumns_getLsbD hcol
  · exact h k hk hcol

theorem colInv_hclkWith (h : ColInv s) : ColInv (hclkWith o s) := by
  intro k hk hcol
  obtain he | ⟨r, -, he⟩ | he := scanAt_cases o s <;> simp only [hclkWith, he]
  · exact colInv_scanEdge h hk hcol
  · exact colInv_scanEdge h hk hcol
  · exact BitVec.getLsbD_zero

theorem windowCountdown_closed {c : ClockPart} (h : c.clkWin = 0#3) : (windowCountdown c).clkWin = 0#3 := by
  simp [windowCountdown, h]

/-- A write sets LOCK with the window closed, and opens the window of an unlocked register alone (40_clock_prescaler.md
R141, R142). -/
theorem lockInv_hclkWith (h : LockInv s) : LockInv (hclkWith o s) := by
  have hdown : (windowCountdown s.clock).clkLock = true → (windowCountdown s.clock).clkWin = 0#3 :=
    fun hl => windowCountdown_closed (h hl)
  intro hl
  simp only [hclkWith] at hl ⊢
  obtain he | ⟨d, hd⟩ := clockAt_cases o s
  · rw [he] at hl ⊢
    exact hdown hl
  · rw [hd] at hl ⊢
    obtain ⟨hlock, -, -, he⟩ | ⟨-, -, -, -, he⟩ | ⟨-, -, -, -, he⟩ | he := clkprWrite_cases d s.clock <;>
      rw [he] at hl ⊢
    · exact absurd (hlock.symm.trans hl) (by decide)
    · exact hdown hl

theorem toNat_pred_lt {x : BitVec 16} (h : x ≠ 0#16) : (x - 1#16).toNat < x.toNat := by
  bv_omega

/-- The transmitter's clause of R60 and those of R263 to R265 hold together: each edge leads from one state's clause to
the next one's. -/
theorem txInv_hclkWith (hp : 1 ≤ s.params.strobeCycles ∧ s.params.strobeCycles ≤ 65535)
    (hidle : TxIdleInv s) (hphase : TxPhaseInv s) : TxIdleInv (hclkWith o s) ∧ TxPhaseInv (hclkWith o s) := by
  obtain ⟨hsetup, hactive, hhold⟩ := hphase
  simp only [TxIdleInv, TxPhaseInv, hclkWith]
  obtain he | ⟨d, hi, he⟩ := txAt_cases o s
  · rw [he]
    obtain ⟨hs, he⟩ | ⟨hs, he⟩ | ⟨hs, hc, he⟩ | ⟨hs, hc, he⟩ | ⟨hs, he⟩ := txEdge_cases s <;> rw [he]
    · exact ⟨hidle, hsetup, hactive, hhold⟩
    · refine ⟨nofun, nofun, fun _ => ⟨rfl, ?_⟩, nofun⟩
      simp only [BitVec.toNat_ofNat]
      omega
    · exact ⟨nofun, nofun, nofun, fun _ => ⟨rfl, hc⟩⟩
    · obtain ⟨hstrobe, hcnt⟩ := hactive hs
      rw [hs]
      exact ⟨nofun, nofun, fun _ => ⟨hstrobe, (toNat_pred_lt hc).trans hcnt⟩, nofun⟩
    · exact ⟨fun _ => hhold hs, nofun, nofun, nofun⟩
  · rw [he]
    exact ⟨nofun, fun _ => hidle hi, nofun, nofun⟩

/-! ### The configuration part at an hclk edge (41_timer.md R167, R168) -/

/-- The configuration with the word as it is just after the edge, every other field as before it: R168's `cur`. -/
def wordAt (o : Option Instr) (c : ConfigPart) : ConfigPart :=
  match o with
  | some (.wrTcfgImsk d) => commitWord d c
  | _ => c

theorem wordAt_frame (o : Option Instr) (c : ConfigPart) :
    ∃ ocra a b imsk, wordAt o c = { c with ocra := ocra, tcfgA := a, tcfgB := b, tcfgImsk := imsk } := by
  unfold wordAt
  split <;> exact ⟨_, _, _, _, rfl⟩

@[simp] theorem wordAt_launches (o : Option Instr) (k : Bool) (c : ConfigPart) :
    launches k (wordAt o c) = launches k c := by
  obtain ⟨_, _, _, _, hw⟩ := wordAt_frame o c
  rw [hw]
  rfl

theorem wordAt_of_no_commit {o : Option Instr} (h : isCommit o = false) (c : ConfigPart) : wordAt o c = c := by
  unfold wordAt
  split
  · exact absurd h (by simp [isCommit])
  · rfl

/-- Every hclk edge is the handshake over the word after the edge; a transaction beside it reaches the staging alone. -/
theorem configAt_eq_handshake (o : Option Instr) (s : State) :
    ∃ stgOcra stgA stgB, configAt o s =
      { handshake (isCommit o) (ackFlop s) (wordAt o s.config) with
        stgOcra := stgOcra
        stgA := stgA
        stgB := stgB } := by
  cases o with
  | none => exact ⟨_, _, _, rfl⟩
  | some i => cases i <;> exact ⟨_, _, _, rfl⟩

theorem handshake_launch {commit a : Bool} {c : ConfigPart} (h : launches commit c = true) :
    handshake commit a c =
      { c with ackS1 := a, ackS2 := c.ackS1, ackS3 := c.ackS2, xferCs := csOf c.tcfgB, xferWgm := wgmOf c.tcfgB c.tcfgA,
               xferOcra := c.ocra, reqTgl := !c.reqTgl, cfgBusy := true, cfgPend := false } := by
  simp [handshake, h]

/-- Without a launch an acknowledge ends the transfer, and a commit in a transfer waits (R168). -/
theorem handshake_noLaunch {commit a : Bool} {c : ConfigPart} (h : launches commit c = false) :
    handshake commit a c =
      { c with ackS1 := a, ackS2 := c.ackS1, ackS3 := c.ackS2, cfgBusy := c.cfgBusy && !ackSeen c
               cfgPend := c.cfgPend || (c.cfgBusy && commit) } := by
  obtain ⟨hl, -⟩ | ⟨-, hb, ha, he⟩ | ⟨-, hb, ha, rfl, he⟩ | ⟨-, hw, he⟩ := handshake_cases commit a c
  · exact absurd (h.symm.trans hl) (by decide)
  · obtain ⟨-, rfl⟩ : c.cfgPend = false ∧ commit = false := by simpa [launches, hb, ha] using h
    simp [he, ha]
  · simp [he, hb, ha]
  · cases hb : c.cfgBusy
    · simp [he, hb]
    · obtain ⟨ha, rfl⟩ := hw hb
      simp [he, hb, ha]

theorem configAt_ackFlops :
    (configAt o s).ackS1 = ackFlop s ∧ (configAt o s).ackS2 = s.config.ackS1 ∧
    (configAt o s).ackS3 = s.config.ackS2 := by
  obtain ⟨_, _, _, hc⟩ := configAt_eq_handshake o s
  obtain ⟨_, _, _, _, hw⟩ := wordAt_frame o s.config
  rw [hc]
  cases hl : launches (isCommit o) (wordAt o s.config)
  · rw [handshake_noLaunch hl, hw]
    exact ⟨rfl, rfl, rfl⟩
  · rw [handshake_launch hl, hw]
    exact ⟨rfl, rfl, rfl⟩

/-- A launch toggles the request and puts the word that is then the committed one in flight. -/
theorem configAt_launch (h : launches (isCommit o) s.config = true) :
    (configAt o s).reqTgl = !s.config.reqTgl ∧ (configAt o s).cfgBusy = true ∧ (configAt o s).cfgPend = false ∧
    transferredTimer (configAt o s) = committedTimer (configAt o s) := by
  obtain ⟨_, _, _, hc⟩ := configAt_eq_handshake o s
  obtain ⟨_, _, _, _, hw⟩ := wordAt_frame o s.config
  rw [hc, handshake_launch ((wordAt_launches ..).trans h), hw]
  exact ⟨rfl, rfl, rfl, rfl⟩

theorem configAt_noLaunch (h : launches (isCommit o) s.config = false) :
    (configAt o s).reqTgl = s.config.reqTgl ∧
    (configAt o s).cfgBusy = (s.config.cfgBusy && !ackSeen s.config) ∧
    (configAt o s).cfgPend = (s.config.cfgPend || (s.config.cfgBusy && isCommit o)) ∧
    transferredTimer (configAt o s) = transferredTimer s.config := by
  obtain ⟨_, _, _, hc⟩ := configAt_eq_handshake o s
  obtain ⟨_, _, _, _, hw⟩ := wordAt_frame o s.config
  rw [hc, handshake_noLaunch ((wordAt_launches ..).trans h), hw]
  exact ⟨rfl, rfl, rfl, rfl⟩

theorem configAt_committed_of_noLaunch (hl : launches (isCommit o) s.config = false) (hk : isCommit o = false) :
    committedTimer (configAt o s) = committedTimer s.config := by
  obtain ⟨_, _, _, hc⟩ := configAt_eq_handshake o s
  rw [hc, wordAt_of_no_commit hk, handshake_noLaunch hl]
  rfl

end

/-! ### The handshake chain (R88, R168, R169)

Both synchronizers shift the chain by one place. A shift drops a change at the end of the chain, which is the
acknowledge, and makes none: a first flop holds what its source or the flop itself held. -/

/-- Where a draw is read only while source and flop differ, the flop takes one of the two. -/
theorem firstFlop_between {chg draw src old : Bool} (h : chg = true → src ≠ old) :
    firstFlop chg draw src = src ∨ firstFlop chg draw src = old := by
  obtain hsrc | ⟨hchg, -⟩ := firstFlop_cases chg draw src
  · exact .inl hsrc
  · have hold : old = !src := Bool.eq_not.2 (h hchg).symm
    exact (eq_or_ne _ src).imp_right fun hf => (Bool.eq_not.2 hf).trans hold.symm

/-- A value put between two neighbours and equal to one of them makes no change. -/
theorem chainChanges_insert {a b f : Bool} (l : List Bool) (hf : f = a ∨ f = b) :
    chainChanges (a :: f :: b :: l) = chainChanges (a :: b :: l) := by
  obtain rfl | rfl := hf <;> simp [chainChanges]

theorem chainChanges_not_head {a b : Bool} {l : List Bool} (h : chainChanges (a :: b :: l) = 0) :
    chainChanges ((!a) :: b :: l) = 1 := by
  obtain ⟨rfl, hl⟩ : a = b ∧ chainChanges (b :: l) = 0 := by simpa [chainChanges] using h
  simp [chainChanges, hl]

/-- An hclk edge with the request held: the acknowledge flops shift, and a change seen at their end leaves. -/
theorem chainChanges_shift_ack {q s1 s2 s3 a1 a2 a3 f : Bool} (hf : f = s3 ∨ f = a1) :
    chainChanges [q, s1, s2, s3, f, a1, a2] + (a2 != a3).toNat = chainChanges [q, s1, s2, s3, a1, a2, a3] := by
  have hins := chainChanges_insert [a2] hf
  have hend : (a2 != a3).toNat = if a2 = a3 then 0 else 1 := by cases a2 <;> cases a3 <;> rfl
  simp only [chainChanges] at hins ⊢
  omega

/-- With one change under way, no request reaches `req_s3` before the acknowledge of the one before has left it. -/
theorem eq_of_chainChanges_le_one {q s1 s2 s3 a1 a2 a3 : Bool}
    (hone : chainChanges [q, s1, s2, s3, a1, a2, a3] ≤ 1) : s3 = s2 ∨ s3 = a1 := by
  by_contra! hboth
  obtain ⟨h2, h1⟩ := hboth
  simp [chainChanges, Ne.symm h2, h1] at hone
  omega

/-- A tclk edge: the request flops shift, and a change that reaches their end stays as the acknowledge, since no older
one is under way. -/
theorem chainChanges_shift_req {q s1 s2 s3 a1 a2 a3 f : Bool} (hf : f = q ∨ f = s1)
    (hone : chainChanges [q, s1, s2, s3, a1, a2, a3] ≤ 1) :
    chainChanges [q, f, s1, s2, a1, a2, a3] = chainChanges [q, s1, s2, s3, a1, a2, a3] := by
  have hdrop := chainChanges_insert [a2, a3] (eq_of_chainChanges_le_one hone)
  rw [chainChanges_insert _ hf]
  simp only [chainChanges] at hdrop ⊢
  omega

section
variable {s : State} (o : Option Instr)

theorem ackFlop_between (h : HandshakeOrder s) :
    ackFlop s = s.timer.reqS3 ∨ ackFlop s = s.config.ackS1 := by
  obtain ⟨-, hack, -, hchg, -⟩ := h
  rw [← hack]
  exact firstFlop_between hchg

/-- The handshake chain after an hclk edge without a launch. -/
def ackShifted (s : State) : List Bool :=
  [s.config.reqTgl, s.timer.reqS1, s.timer.reqS2, s.timer.reqS3, ackFlop s, s.config.ackS1, s.config.ackS2]

theorem chainChanges_ackShifted (h : HandshakeOrder s) :
    chainChanges (ackShifted s) + (ackSeen s.config).toNat = s.config.cfgBusy.toNat :=
  (chainChanges_shift_ack (ackFlop_between h)).trans h.1

theorem eq_toNat_and_not_of_add {n : Nat} {a b : Bool} (h : n + a.toNat = b.toNat) : n = (b && !a).toNat := by
  cases a <;> cases b <;> simp at h ⊢ <;> omega

/-- A launch waits until the request before it is acknowledged, so no change is left under way. -/
theorem chainChanges_ackShifted_of_launches {k : Bool} (h : HandshakeOrder s) (hl : launches k s.config = true) :
    chainChanges (ackShifted s) = 0 := by
  have hshift := chainChanges_ackShifted h
  cases hb : s.config.cfgBusy
  · simp only [hb, Bool.toNat_false] at hshift
    omega
  · obtain ⟨ha, -⟩ : ackSeen s.config = true ∧ (s.config.cfgPend = true ∨ k = true) := by
      simpa [launches, hb] using hl
    simpa [hb, ha] using hshift

/-- A launch finds the timer with the request before it loaded. -/
theorem reqTgl_eq_of_launches {k : Bool} (h : HandshakeOrder s) (hl : launches k s.config = true) :
    s.config.reqTgl = s.timer.reqS1 ∧ s.config.reqTgl = s.timer.ackTgl := by
  have hquiet := chainChanges_ackShifted_of_launches h hl
  obtain ⟨-, hack, -⟩ := h
  simp only [ackShifted, chainChanges, Nat.add_eq_zero_iff, ite_eq_left_iff, one_ne_zero, imp_false, not_not] at hquiet
  obtain ⟨h1, h2, h3, -⟩ := hquiet
  exact ⟨h1, by rw [hack, h1, h2, h3]⟩

theorem handshakeOrder_hclkWith (h : HandshakeOrder s) : HandshakeOrder (hclkWith o s) := by
  obtain ⟨-, hack, hreq, -, hpend⟩ := id h
  obtain ⟨hf1, hf2, hf3⟩ := configAt_ackFlops (s := s) o
  simp only [HandshakeOrder, PendInv, handshakeChain, hclkWith, hf1, hf2, hf3, chgEdge]
  cases hl : launches (isCommit o) s.config
  · obtain ⟨hq, hb, hp, -⟩ := configAt_noLaunch o hl
    rw [hq, hb, hp]
    refine ⟨?count, hack, by simpa using hreq, nofun, ?pend⟩
    case count => exact eq_toNat_and_not_of_add (chainChanges_ackShifted h)
    case pend =>
      intro hp'
      have hwaits : s.config.cfgPend = true ∨ s.config.cfgBusy = true ∧ isCommit o = true := by simpa using hp'
      have hbusy : s.config.cfgBusy = true := hwaits.elim hpend And.left
      have hunseen : ackSeen s.config = false := by
        by_contra ha
        obtain ⟨hp0, hk0⟩ : s.config.cfgPend = false ∧ isCommit o = false := by
          simpa [launches, hbusy, ha] using hl
        simp [hp0, hk0] at hwaits
      simp [hbusy, hunseen]
  · obtain ⟨hq, hb, hp, -⟩ := configAt_launch o hl
    obtain ⟨hfresh, -⟩ := reqTgl_eq_of_launches h hl
    rw [hq, hb, hp]
    exact ⟨chainChanges_not_head (chainChanges_ackShifted_of_launches h hl), hack, fun _ => by simp [hfresh], nofun,
      nofun⟩

/-- A launch puts the committed word in flight with the request open; a commit without a launch waits in CFG_PEND. -/
theorem transferCoherent_hclkWith (ho : HandshakeOrder s) (h : TransferCoherent s) :
    TransferCoherent (hclkWith o s) := by
  obtain ⟨hcommitted, hloaded⟩ := h
  simp only [TransferCoherent, hclkWith]
  cases hl : launches (isCommit o) s.config
  · obtain ⟨hq, -, hp, hx⟩ := configAt_noLaunch o hl
    rw [hq, hp, hx]
    refine ⟨fun hp' => ?_, hloaded⟩
    obtain ⟨hpend, hwait⟩ : s.config.cfgPend = false ∧ (s.config.cfgBusy = true → isCommit o = false) := by
      simpa using hp'
    have hk : isCommit o = false := by
      cases hb : s.config.cfgBusy
      · simpa [launches, hb] using hl
      · exact hwait hb
    rw [configAt_committed_of_noLaunch o hl hk]
    exact hcommitted hpend
  · obtain ⟨hq, -, -, hx⟩ := configAt_launch o hl
    obtain ⟨-, hack⟩ := reqTgl_eq_of_launches ho hl
    refine ⟨fun _ => hx, fun hclosed => ?_⟩
    simp [hq, hack] at hclosed

/-! ### The invariant at each kind of edge -/

theorem stateInvariants_hclkWith (h : BlockInv s) : StateInvariants (hclkWith o s) := by
  obtain ⟨hlegal, ⟨hscan, htx, hclr, hrst, hlock, -, hcount, hrow, hcol⟩, hphase, horder, -⟩ := h
  obtain ⟨-, -, -, ⟨-, hrows⟩, -, -, hstrobe, -⟩ := hlegal
  obtain ⟨htx', -⟩ := txInv_hclkWith o hstrobe htx hphase
  obtain ⟨-, -, -, -, hpend'⟩ := handshakeOrder_hclkWith o horder
  exact ⟨scanIdleInv_hclkWith o hscan, htx', clrIdleInv_hclkWith o hclr, rstIdleInv_hclkWith o hrst,
    lockInv_hclkWith o hlock, hpend', hcount, rowInv_hclkWith o hrows hrow, colInv_hclkWith o hcol⟩

theorem blockInv_hclkWith (h : BlockInv s) : BlockInv (hclkWith o s) := by
  have hstate := stateInvariants_hclkWith o h
  obtain ⟨hlegal, ⟨-, htx, -⟩, hphase, horder, hcoherent⟩ := h
  obtain ⟨-, -, -, -, -, -, hstrobe, -⟩ := id hlegal
  obtain ⟨-, hphase'⟩ := txInv_hclkWith o hstrobe htx hphase
  exact ⟨hlegal, hstate, hphase', handshakeOrder_hclkWith o horder, transferCoherent_hclkWith o horder hcoherent⟩

end

section
variable {s : State}

theorem loadOrCount_of_loads (h : loads s.timer = true) : loadOrCount s = (loadTimer s.config s.timer, false) := by
  simp [loadOrCount, h]

theorem loadOrCount_of_not_loads (h : loads s.timer = false) : loadOrCount s = countEdge s.timer := by
  simp [loadOrCount, h]

/-- The acknowledge toggles at a load and at no other edge (R169). -/
theorem loadOrCount_ackTgl (s : State) : (loadOrCount s).1.ackTgl = (s.timer.ackTgl ^^ loads s.timer) := by
  cases hl : loads s.timer
  · obtain ⟨-, -, -, hack, -⟩ := countEdge_spec s.timer
    rw [loadOrCount_of_not_loads hl, hack, Bool.xor_false]
  · rw [loadOrCount_of_loads hl, loadTimer, Bool.xor_true]

theorem running_congr {t u : TimerPart} (hcs : u.tCs = t.tCs) (hwgm : u.tWgm = t.tWgm) : running u = running t := by
  simp only [running, hcs, hwgm]

/-- A load starts the counter at 0; a count stops it at the compare target (R169, R171). -/
theorem countInv_tclkEdge (h : CountInv s) : CountInv (tclkEdge s) := by
  have hrunning : running (tclkEdge s).timer = running (loadOrCount s).1 := running_congr rfl rfl
  rw [CountInv, hrunning, tclkEdge_timer]
  cases hl : loads s.timer
  · obtain ⟨hcs, hwgm, hocra, -, -, -, -, -, hle⟩ := countEdge_spec s.timer
    rw [loadOrCount_of_not_loads hl, running_congr hcs hwgm, hocra]
    exact fun hrun => hle (h hrun)
  · rw [loadOrCount_of_loads hl]
    exact fun _ => Nat.zero_le _

theorem handshakeOrder_tclkEdge (h : HandshakeOrder s) : HandshakeOrder (tclkEdge s) := by
  obtain ⟨hcount, hack, hreq, hchg, hpend⟩ := h
  have hack' : (loadOrCount s).1.ackTgl = s.timer.reqS2 := by
    rw [loadOrCount_ackTgl, hack, loads]
    cases s.timer.reqS2 <;> simp
  have hone : chainChanges (handshakeChain s) ≤ 1 := hcount ▸ Bool.toNat_le _
  simp only [HandshakeOrder, PendInv, handshakeChain, tclkEdge_timer, tclkEdge_config, tclkEdge_chg]
  refine ⟨(chainChanges_shift_req (firstFlop_between hreq) hone).trans hcount, hack', nofun, fun hc => ?_, hpend⟩
  rw [hack']
  cases hl : loads s.timer
  · have heq : s.timer.reqS2 = s.timer.reqS3 := by simpa [loads] using hl
    rw [heq, ← hack]
    exact hchg (by simpa [hl] using hc)
  · have hne : s.timer.reqS2 ≠ s.timer.reqS3 := by simpa [loads] using hl
    rw [← (eq_of_chainChanges_le_one hone).resolve_left hne.symm]
    exact hne

theorem transferCoherent_tclkEdge (h : TransferCoherent s) : TransferCoherent (tclkEdge s) := by
  obtain ⟨hcommitted, hloaded⟩ := h
  simp only [TransferCoherent, tclkEdge_timer, tclkEdge_config]
  refine ⟨hcommitted, ?_⟩
  cases hl : loads s.timer
  · obtain ⟨hcs, hwgm, hocra, hack, -⟩ := countEdge_spec s.timer
    rw [loadOrCount_of_not_loads hl, loadedTimer, hcs, hwgm, hocra, hack]
    exact hloaded
  · rw [loadOrCount_of_loads hl]
    exact fun _ => rfl

theorem blockInv_tclkEdge (h : BlockInv s) : BlockInv (tclkEdge s) := by
  obtain ⟨hlegal, ⟨hscan, htx, hclr, hrst, hlock, hpend, hcount, hrow, hcol⟩, hphase, horder, hcoherent⟩ := h
  exact ⟨hlegal, ⟨hscan, htx, hclr, hrst, hlock, hpend, countInv_tclkEdge hcount, hrow, hcol⟩, hphase,
    handshakeOrder_tclkEdge horder, transferCoherent_tclkEdge hcoherent⟩

/-- The inputs to come do not enter the invariant. -/
theorem blockInv_nextInput (h : BlockInv s) : BlockInv (nextInput s) := by
  unfold nextInput
  split <;> exact h

end

/-- Settles O44: a step is one of the three edges and the next inputs, and each keeps the invariant. -/
theorem blockInvariantKept : Obligations.BlockInvariantKept := by
  intro s t h hstep
  have ⟨hlegal, _⟩ := h
  obtain ⟨-, rfl⟩ | ⟨-, rfl⟩ | ⟨-, rfl⟩ := step_cases hstep
  · exact blockInv_nextInput (blockInv_hclkWith _ h)
  · exact blockInv_nextInput (blockInv_tclkEdge h)
  · exact blockInv_nextInput (blockInvariantAtReset s.params hlegal)

theorem blockInv_of_reached {p : Params} {s : State} (hp : p.Legal) (h : Reached p s) : BlockInv s := by
  obtain ⟨is, his⟩ := h
  exact runInputs_keeps (fun _ _ h => h) blockInvariantKept (blockInvariantAtReset p hp) his

/-- Settles O46: the listed invariants are part of the invariant that every run keeps. -/
theorem reachableStatesMeetInvariants : Obligations.ReachableStatesMeetInvariants :=
  fun _ _ hp h =>
    have ⟨_, hinvariants, _⟩ := blockInv_of_reached hp h
    hinvariants

end Sys2Proof.Machine
end

section
/-! PROOFS. Family 20_memory.md: the transaction that the bus pins present and what it returns, and the transfer of the
timer configuration to tclk. -/

namespace Sys2Proof

/-! ### What the decoder reads from a word (30_encoding.md R110 to R113) -/

/-- Each row of R113 names the transaction whose W and A its pattern holds, and a write row takes D as its operand. -/
theorem opcodeRow_fields : ∀ r ∈ opcodeRows, r.mask = 0x1F00 ∧ ∀ d,
    (r.make d).isWrite = r.pattern.getLsbD 12 ∧ (r.make d).addr = r.pattern.extractLsb' 8 4 ∧
    ((r.make d).isWrite = true → (r.make d).data = d) := by
  intro r hr
  fin_cases hr <;> exact ⟨rfl, fun _ => ⟨rfl, rfl, by simp [Instr.isWrite, Instr.data]⟩⟩

theorem decode_eq_ok {w : TxWord} {i : Instr} (h : decode w = .ok i) :
    ∃ r ∈ opcodeRows, r.selects w = true ∧ i = r.make (wordData w) := by
  unfold decode at h
  split at h
  · next r hr =>
    have hsel : r.selects w = true := List.find?_some (p := (OpcodeRow.selects · w)) hr
    exact ⟨r, List.mem_of_find?_eq_some hr, hsel, (Except.ok.inj h).symm⟩
  · simp at h

/-- The decoded transaction has the word's W and A, and a write has its D. -/
theorem decode_fields {w : TxWord} {i : Instr} (h : decode w = .ok i) :
    i.isWrite = w.getLsbD 12 ∧ i.addr = w.extractLsb' 8 4 ∧ (i.isWrite = true → i.data = wordData w) := by
  obtain ⟨r, hr, hsel, rfl⟩ := decode_eq_ok h
  obtain ⟨hmask, hmake⟩ := opcodeRow_fields r hr
  obtain ⟨hwrite, haddr, hdata⟩ := hmake (wordData w)
  have hpat : w &&& 0x1F00 = r.pattern := by simpa [OpcodeRow.selects, hmask] using hsel
  refine ⟨?_, ?_, hdata⟩
  · simp [hwrite, ← hpat]
  · rw [haddr, ← hpat, BitVec.extractLsb'_and]
    exact BitVec.and_allOnes

theorem decode_wordOf {w : Bool} {a : RegAddr} {d : Byte} {i : Instr} (h : decode (wordOf w a d) = .ok i) :
    i.isWrite = w ∧ i.addr = a ∧ (w = true → i.data = d) := by
  obtain ⟨hwrite, haddr, hdata⟩ := decode_fields h
  obtain ⟨hw, ha, hd⟩ := Laws.WordFields.wordOf_fields w a d
  exact ⟨hwrite.trans hw, haddr.trans ha, fun h1 => (hdata (hwrite.trans (hw.trans h1))).trans hd⟩

namespace Machine

/-! ### The transaction on the bus (20_memory.md R83) -/

theorem transactionOf_of_decode {b : StepInput} {w : TxWord} {i : Instr} (hw : busWord b.bus = some w)
    (hi : decode w = .ok i) : transactionOf b = some i := by
  simp [transactionOf, hw, hi, Except.toOption]

theorem transactionOf_of_no_word {b : StepInput} (h : busWord b.bus = none) : transactionOf b = none := by
  simp [transactionOf, h]

/-- `bus_wr` alone decides that the transaction is a write (R83). -/
theorem transactionOf_of_write {b : StepInput} (hwr : b.bus.wr = true) :
    ∃ i, transactionOf b = some i ∧ i.isWrite = true ∧ i.addr = b.bus.addr ∧ i.data = b.bus.wdata := by
  obtain ⟨i, hi⟩ := decode_total (wordOf true b.bus.addr b.bus.wdata)
  obtain ⟨hwrite, haddr, hdata⟩ := decode_wordOf hi
  exact ⟨i, transactionOf_of_decode (by simp [busWord, hwr]) hi, hwrite, haddr, hdata rfl⟩

theorem transactionOf_of_read {b : StepInput} (hwr : b.bus.wr = false) (hrd : b.bus.rd = true) :
    ∃ i, transactionOf b = some i ∧ i.isWrite = false ∧ i.addr = b.bus.addr := by
  obtain ⟨i, hi⟩ := decode_total (wordOf false b.bus.addr b.bus.wdata)
  obtain ⟨hread, haddr, -⟩ := decode_wordOf hi
  exact ⟨i, transactionOf_of_decode (by simp [busWord, hwr, hrd]) hi, hread, haddr⟩

theorem transactionOf_of_idle {b : StepInput} (hwr : b.bus.wr = false) (hrd : b.bus.rd = false) :
    transactionOf b = none :=
  transactionOf_of_no_word (by simp [busWord, hwr, hrd])

/-! ### The step that runs it -/

theorem step_of_legal_hclk {s : State} (hp : s.params.Legal) (he : s.input.edge = .hclk) :
    step s = .next (nextInput (hclkWith (transactionOf s.input) s)) := by
  rw [step, if_pos hp, edgeStep, he]
  simp only [hclkStep_eq_hclkWith, mapNext]

theorem step_of_transaction {s : State} {i : Instr} (hp : s.params.Legal) (he : s.input.edge = .hclk)
    (hi : transactionOf s.input = some i) : step s = mapNext nextInput (exec i s) := by
  rw [step_of_legal_hclk hp he, hi, exec_eq_hclkWith, mapNext]

theorem step_of_no_transaction {s : State} (hp : s.params.Legal) (he : s.input.edge = .hclk)
    (hnone : transactionOf s.input = none) : step s = .next (nextInput (hclkEdge s)) := by
  rw [step_of_legal_hclk hp he, hnone, hclkEdge_eq_hclkWith]

/-- Settles O5: the step is the edge with the bus's transaction, which the decoded word is. -/
theorem stepRunsDecodedTransaction : Obligations.StepRunsDecodedTransaction :=
  fun _ hp he =>
    ⟨fun _ _ hw hi _ => step_of_transaction hp he (transactionOf_of_decode hw hi),
      fun hnone => step_of_no_transaction hp he (transactionOf_of_no_word hnone)⟩

/-- Settles O6, by the three cases of the strobes. -/
theorem busPinsPresentOneTransaction : Obligations.BusPinsPresentOneTransaction := by
  intro s hp he
  refine ⟨fun hwr => ?write, fun hwr hrd => ?read, fun hwr hrd => ?idle, step_total_of_legal hp⟩
  case write =>
    obtain ⟨i, hi, hwrite, haddr, hdata⟩ := transactionOf_of_write hwr
    exact ⟨busRdata_of_no_read (.inr hwr), i, hwrite, haddr, hdata, step_of_transaction hp he hi⟩
  case read =>
    obtain ⟨i, hi, hread, haddr⟩ := transactionOf_of_read hwr hrd
    exact ⟨i, hread, haddr, step_of_transaction hp he hi⟩
  case idle =>
    exact ⟨busRdata_of_no_read (.inl hrd), step_of_no_transaction hp he (transactionOf_of_idle hwr hrd)⟩

/-! ### What the host receives (20_memory.md R84, R91) -/

/-- The byte that an hclk edge gives the host is the one on the pins before it. -/
theorem rdataAt_transactionOf (s : State) : rdataAt (transactionOf s.input) s = busRdata s := by
  cases hwr : s.input.bus.wr
  · cases hrd : s.input.bus.rd
    · rw [transactionOf_of_idle hwr hrd, busRdata_of_no_read (.inl hrd), rdataAt]
    · obtain ⟨i, hi, hread, haddr⟩ := transactionOf_of_read hwr hrd
      simp [hi, rdataAt, hread, haddr, busRdata_of_read hrd hwr]
  · obtain ⟨i, hi, hwrite, -⟩ := transactionOf_of_write hwr
    simp [hi, rdataAt, hwrite, busRdata_of_no_read (.inr hwr)]

/-- Settles O9. -/
theorem hostReceivesBusRdata : Obligations.HostReceivesBusRdata := by
  intro s t hstep
  refine ⟨fun he => ?_, fun he => ?_⟩
  · rw [step_hclk he hstep, nextInput_rdata]
    exact rdataAt_transactionOf s
  · rw [step_tclk he hstep, nextInput_rdata, tclkEdge_rdata]

/-- A read reaches no part of the block but the tick flag, and that one by a poll alone. -/
theorem hclkWith_of_read {i : Instr} (hread : i.isWrite = false) (s : State) :
    hclkWith (some i) s = { readEdge (readValue i.addr s) s with tick := tickEdge (isPoll (some i)) s } := by
  cases i <;> simp [Instr.isWrite] at hread <;> rfl

theorem isPoll_of_ne {i : Instr} (h : i ≠ .rdTick) : isPoll (some i) = false := by
  unfold isPoll
  split
  · next heq => exact absurd (Option.some.inj heq) h
  · rfl

/-- Settles O24. -/
theorem onlyThePollReadHasASideEffect : Obligations.OnlyThePollReadHasASideEffect := by
  intro i s hread hpoll
  rw [exec_eq_hclkWith, hclkWith_of_read hread, isPoll_of_ne hpoll]
  rfl

/-! ### The request is held until it is loaded (41_timer.md R168) -/

/-- No launch happens while a request is unacknowledged. -/
theorem not_launches_of_open {s : State} {k : Bool} (h : HandshakeOrder s) (hopen : s.config.reqTgl ≠ s.timer.ackTgl) :
    launches k s.config = false :=
  Bool.eq_false_iff.2 fun hl =>
    have ⟨_, hack⟩ := reqTgl_eq_of_launches h hl
    hopen hack

/-- Settles O47: only a launch puts a new value in flight. -/
theorem transferStableWhileRequested : Obligations.TransferStableWhileRequested := by
  intro s t horder hopen hreset hstep
  obtain ⟨-, rfl⟩ | ⟨-, rfl⟩ | ⟨he, -⟩ := step_cases hstep
  · obtain ⟨-, -, -, hkept⟩ := configAt_noLaunch (transactionOf s.input) (not_launches_of_open horder hopen)
    rw [nextInput_config]
    exact hkept
  · rw [nextInput_config, tclkEdge_config]
  · exact absurd he hreset

/-! ### The load at the third or fourth tclk edge (41_timer.md R169, R175)

The acknowledge toggle follows the request through the tclk flops: a tclk edge moves what is under way one place on. -/

theorem handshakeOrder_nextInput {s : State} (h : HandshakeOrder s) : HandshakeOrder (nextInput s) := by
  unfold nextInput
  split <;> exact h

/-- The draws of the request crossing at the tclk edges of a run. -/
def requestDraws (is : List StepInput) : List Bool := (tclkInputs is).map StepInput.reqDraw

/-- What `req_s1` takes at the next tclk edges, as far as it is settled: an unacknowledged request is held, and its first edge
takes the draw. -/
def requestLine (draws : List Bool) (s : State) : List Bool :=
  if s.config.reqTgl = s.timer.ackTgl then []
  else if s.chg.reqChg then draws.take 1 ++ [s.config.reqTgl]
  else [s.config.reqTgl]

/-- The acknowledge toggle now and after each of the next tclk edges, as far as it is settled. -/
def ackLine (draws : List Bool) (s : State) : List Bool :=
  s.timer.ackTgl :: s.timer.reqS2 :: s.timer.reqS1 :: requestLine draws s

section
variable {s : State}

@[simp] theorem ackLine_nextInput (draws : List Bool) (s : State) : ackLine draws (nextInput s) = ackLine draws s := by
  simp only [ackLine, requestLine, nextInput_timer, nextInput_config, nextInput_chg]

/-- A fresh request finds every tclk flop, and so the acknowledge, at the old value. -/
theorem flops_of_fresh (h : HandshakeOrder s) (hfresh : s.chg.reqChg = true) :
    s.timer.reqS1 = (!s.config.reqTgl) ∧ s.timer.reqS2 = (!s.config.reqTgl) ∧ s.timer.ackTgl = (!s.config.reqTgl) := by
  obtain ⟨hcount, hack, hreq, -⟩ := h
  have hne := hreq hfresh
  have hone : chainChanges (handshakeChain s) ≤ 1 := hcount ▸ Bool.toNat_le _
  obtain ⟨h12, h23, -⟩ : s.timer.reqS1 = s.timer.reqS2 ∧ s.timer.reqS2 = s.timer.reqS3 ∧ _ := by
    simpa [handshakeChain, chainChanges, hne] using hone
  have h1 : s.timer.reqS1 = !s.config.reqTgl := Bool.eq_not.2 hne.symm
  exact ⟨h1, h12 ▸ h1, by rw [hack, ← h23, ← h12, h1]⟩

theorem ackLine_of_fresh (h : HandshakeOrder s) (hfresh : s.chg.reqChg = true) (draws : List Bool) :
    ackLine draws s =
      [!s.config.reqTgl, !s.config.reqTgl, !s.config.reqTgl] ++ draws.take 1 ++ [s.config.reqTgl] := by
  obtain ⟨h1, h2, hack⟩ := flops_of_fresh h hfresh
  simp [ackLine, requestLine, h1, h2, hack, hfresh]

/-- A tclk edge leaves the acknowledge at the value of `req_s2` before it. -/
theorem tclkEdge_ackTgl (h : HandshakeOrder s) : (tclkEdge s).timer.ackTgl = s.timer.reqS2 :=
  have ⟨_, hack, _⟩ := handshakeOrder_tclkEdge h
  hack

theorem requestLine_tclkEdge (h : HandshakeOrder s) (draws : List Bool) :
    requestLine draws (tclkEdge s) = if s.config.reqTgl = s.timer.reqS2 then [] else [s.config.reqTgl] := by
  simp [requestLine, tclkEdge_ackTgl h, -tclkEdge_timer]

/-- A tclk edge takes the first place of the line and gives `req_s1` the place that the line has settled. -/
theorem ackLine_tclkEdge (h : HandshakeOrder s) (draws : List Bool) :
    ackLine (s.input.reqDraw :: draws) s <+: s.timer.ackTgl :: ackLine draws (tclkEdge s) := by
  have hnext : ackLine draws (tclkEdge s) = s.timer.reqS2 :: s.timer.reqS1 ::
      firstFlop s.chg.reqChg s.input.reqDraw s.config.reqTgl ::
      (if s.config.reqTgl = s.timer.reqS2 then [] else [s.config.reqTgl]) := by
    rw [ackLine, tclkEdge_ackTgl h, requestLine_tclkEdge h, tclkEdge_timer]
  rw [hnext]
  cases hfresh : s.chg.reqChg
  · by_cases hopen : s.config.reqTgl = s.timer.ackTgl <;> simp [ackLine, requestLine, hopen, hfresh, firstFlop]
  · obtain ⟨h1, h2, hack⟩ := flops_of_fresh h hfresh
    simp [ackLine_of_fresh h hfresh, firstFlop, h1, h2, hack]

theorem ackLine_hclkWith (h : HandshakeOrder s) (o : Option Instr) (draws : List Bool) :
    ackLine draws s <+: ackLine draws (hclkWith o s) := by
  by_cases hopen : s.config.reqTgl = s.timer.ackTgl
  · simp [ackLine, requestLine, hopen, hclkWith]
  · have hl := not_launches_of_open (k := isCommit o) h hopen
    obtain ⟨hq, -⟩ := configAt_noLaunch o hl
    simp [ackLine, requestLine, hclkWith, hq, chgEdge, hl]

end

theorem getElem?_of_isPrefix {l m : List Bool} {n : Nat} {v : Bool} (h : l <+: m) (hv : l[n]? = some v) :
    m[n]? = some v := by
  obtain ⟨rest, rfl⟩ := h
  obtain ⟨hn, -⟩ := List.getElem?_eq_some_iff.1 hv
  rw [List.getElem?_append_left hn, hv]

@[simp] theorem tclkInputs_cons_hclk {i : StepInput} (he : i.edge = .hclk) (is : List StepInput) :
    tclkInputs (i :: is) = tclkInputs is := by
  simp [tclkInputs, he]

@[simp] theorem tclkInputs_cons_tclk {i : StepInput} (he : i.edge = .tclk) (is : List StepInput) :
    tclkInputs (i :: is) = i :: tclkInputs is := by
  simp [tclkInputs, he]

/-- Along a run the acknowledge takes the values of its line, one at each tclk edge. -/
theorem ackTgl_of_run : ∀ {is : List StepInput} {s t : State} {v : Bool}, HandshakeOrder s → NoReset is →
    runInputs is s = .next t → (ackLine (requestDraws is) s)[(tclkInputs is).length]? = some v → t.timer.ackTgl = v
  | [], s, t, v, _, _, hrun, hv => by
    obtain rfl : s = t := by simpa [runInputs] using hrun
    simpa [ackLine, tclkInputs] using hv
  | i :: is, s, t, v, horder, hreset, hrun, hv => by
    obtain ⟨hi, his⟩ := List.forall_mem_cons.1 hreset
    obtain ⟨u, hu, ht⟩ := runInputs_cons hrun
    have horder' : HandshakeOrder (s.withInput i) := horder
    obtain ⟨he, rfl⟩ | ⟨he, rfl⟩ | ⟨he, -⟩ := step_cases hu
    · rw [withInput_input] at he
      rw [requestDraws, tclkInputs_cons_hclk he] at hv
      refine ackTgl_of_run (handshakeOrder_nextInput (handshakeOrder_hclkWith _ horder')) his ht ?_
      rw [ackLine_nextInput]
      exact getElem?_of_isPrefix (ackLine_hclkWith horder' _ _) hv
    · rw [withInput_input] at he
      rw [requestDraws, tclkInputs_cons_tclk he] at hv
      refine ackTgl_of_run (handshakeOrder_nextInput (handshakeOrder_tclkEdge horder')) his ht ?_
      rw [ackLine_nextInput]
      simpa using getElem?_of_isPrefix (ackLine_tclkEdge horder' (requestDraws is)) hv
    · exact absurd he hi

/-- In the line of a fresh request for `q` whose first flop draws `d`, the new value comes at place 3 or 4. -/
theorem freshLine_spec (q d : Bool) : ∀ n ≤ 4, ∃ v, [!q, !q, !q, d, q][n]? = some v ∧
    (v ≠ !q ↔ (if d = q then 3 else 4) ≤ n) := by
  cases q <;> cases d <;> decide

/-- Settles O49: the acknowledge, which toggles at the load, takes the values of the fresh request's line. -/
theorem transferLoadsAtThirdOrFourthEdge : Obligations.TransferLoadsAtThirdOrFourthEdge := by
  intro is i s t horder hfresh hreset hhead hlen hrun
  have hdraw : (requestDraws is).take 1 = [i.reqDraw] := by
    rw [requestDraws, List.take_one, List.head?_map, hhead]
    rfl
  have hline := ackLine_of_fresh horder hfresh (requestDraws is)
  obtain ⟨-, -, hack⟩ := flops_of_fresh horder hfresh
  obtain ⟨v, hv, hnew⟩ := freshLine_spec s.config.reqTgl i.reqDraw _ hlen
  have htoggle : t.timer.ackTgl = v := ackTgl_of_run horder hreset hrun (by rw [hline, hdraw]; exact hv)
  rw [htoggle, hack]
  exact hnew

end Machine
end Sys2Proof
end

section
/-! PROOFS. Family 30_encoding.md: decoding and encoding agree, each word selects exactly one row of the opcode map, a
read word's D selects nothing; and the prescaler and the counter at a tclk edge with the divisions of R115. -/

namespace Sys2Proof

/-! ### The row that a word selects (R112, R113) -/

/-- A word's W and A alone decide whether it selects a row of the map. -/
theorem selects_eq_beq_selectBits {r : OpcodeRow} (hr : r ∈ opcodeRows) (w : TxWord) :
    r.selects w = (selectBits w == r.pattern) := by
  obtain ⟨hmask, -⟩ := opcodeRow_fields r hr
  rw [OpcodeRow.selects, hmask, and_rowMask_eq_selectBits]

theorem selects_iff {r : OpcodeRow} (hr : r ∈ opcodeRows) {w : TxWord} :
    r.selects w = true ↔ r.pattern = selectBits w := by
  rw [selects_eq_beq_selectBits hr, beq_iff_eq, eq_comm]

theorem opcodeRow_patterns_nodup : (opcodeRows.map (·.pattern)).Nodup := by decide

theorem opcodeRow_eq_of_selects {r r' : OpcodeRow} {w : TxWord} (hr : r ∈ opcodeRows) (hr' : r' ∈ opcodeRows)
    (h : r.selects w = true) (h' : r'.selects w = true) : r = r' :=
  List.inj_on_of_nodup_map opcodeRow_patterns_nodup hr hr' (((selects_iff hr).1 h).trans ((selects_iff hr').1 h').symm)

/-- No pattern of the map occurs twice, and the pattern of the word's W and A occurs. -/
theorem length_filter_selects (w : TxWord) : (opcodeRows.filter (fun r => r.selects w)).length = 1 := by
  obtain ⟨r, hr, hsel⟩ := exists_row_selects w
  have hmem : selectBits w ∈ opcodeRows.map (·.pattern) := List.mem_map.2 ⟨r, hr, (selects_iff hr).1 hsel⟩
  calc (opcodeRows.filter (fun r => r.selects w)).length
    _ = opcodeRows.countP (fun r => r.selects w) := List.countP_eq_length_filter.symm
    _ = opcodeRows.countP (fun r => r.pattern == selectBits w) :=
      List.countP_congr fun r hr => by rw [selects_iff hr, beq_iff_eq]
    _ = (opcodeRows.map (·.pattern)).count (selectBits w) := by rw [List.count, List.countP_map]; rfl
    _ = 1 := List.count_eq_one_of_mem opcodeRow_patterns_nodup hmem

theorem decode_eq_of_selects {r : OpcodeRow} {w : TxWord} (hr : r ∈ opcodeRows) (h : r.selects w = true) :
    decode w = .ok (r.make (wordData w)) := by
  obtain ⟨i, hi⟩ := decode_total w
  obtain ⟨r', hr', h', rfl⟩ := decode_eq_ok hi
  rw [hi, opcodeRow_eq_of_selects hr hr' h h']

/-- Settles O2: the patterns of the 32 rows are the 32 values of W and A, each once. -/
theorem everyWordSelectsOneTransaction : Obligations.EveryWordSelectsOneTransaction := by
  refine ⟨rfl, by decide, fun w => ⟨length_filter_selects w, decode_total w, fun v hfield => ?_⟩⟩
  have hbits : selectBits v = selectBits w := by rw [selectBits, hfield, selectBits]
  exact List.filter_congr fun r hr => by
    rw [selects_eq_beq_selectBits hr, selects_eq_beq_selectBits hr, hbits]

/-! ### Decoding and encoding agree (R110, R111, R113) -/

/-- `selectBits` keeps W and A in their places and clears D. -/
theorem selectBits_wordOf (w : Bool) (a : RegAddr) (d : Byte) : selectBits (wordOf w a d) = wordOf w a 0#8 := by
  apply BitVec.eq_of_getLsbD_eq
  intro k hk
  simp only [selectBits, wordOf, BitVec.getLsbD_shiftLeft, BitVec.getLsbD_setWidth, BitVec.getLsbD_extractLsb',
    BitVec.getLsbD_append]
  interval_cases k <;> simp

theorem opcodeRow_pattern_eq_wordOf : ∀ r ∈ opcodeRows,
    r.pattern = wordOf (r.pattern.getLsbD 12) (r.pattern.extractLsb' 8 4) 0#8 := by
  decide

/-- The pattern of a row is the W and A of its transaction, with D = 0. -/
theorem opcodeRow_pattern {r : OpcodeRow} (hr : r ∈ opcodeRows) (d : Byte) :
    r.pattern = wordOf (r.make d).isWrite (r.make d).addr 0#8 := by
  obtain ⟨-, hmake⟩ := opcodeRow_fields r hr
  obtain ⟨hwrite, haddr, -⟩ := hmake d
  rw [hwrite, haddr]
  exact opcodeRow_pattern_eq_wordOf r hr

/-- The map lists the transactions by W and A, and each row makes its transaction from D. -/
theorem Instr.exists_row (i : Instr) :
    ∃ r, opcodeRows[16 * i.isWrite.toNat + i.addr.toNat]? = some r ∧ r.make i.data = i := by
  cases i <;> exact ⟨_, rfl, rfl⟩

theorem decode_encode (i : Instr) : decode (encode i) = .ok i := by
  obtain ⟨r, hrow, hmake⟩ := i.exists_row
  have hr : r ∈ opcodeRows := List.mem_of_getElem? hrow
  have hsel : r.selects (encode i) = true := by
    rw [selects_iff hr, opcodeRow_pattern hr i.data, hmake, encode, selectBits_wordOf]
  obtain ⟨-, -, hdata⟩ := Laws.WordFields.wordOf_fields i.isWrite i.addr i.data
  calc decode (encode i)
    _ = .ok (r.make (wordData (encode i))) := decode_eq_of_selects hr hsel
    _ = .ok (r.make i.data) := by rw [wordData, encode, hdata]
    _ = .ok i := by rw [hmake]

theorem Instr.data_of_read {i : Instr} (h : i.isWrite = false) : i.data = 0#8 := by
  revert h
  cases i <;> simp [Instr.isWrite, Instr.data]

/-- Settles O1: the row of a transaction is the one that its word selects; the fields of a decoded word are those of the
row that it selects. -/
theorem decodeEncodeAgree : Obligations.DecodeEncodeAgree := by
  refine ⟨decode_encode, fun w i h => ?_⟩
  obtain ⟨hwrite, haddr, hdata⟩ := decode_fields h
  refine ⟨hwrite, haddr, ?_⟩
  split
  · next hw => exact hdata (hwrite.trans hw)
  · next hr => exact Instr.data_of_read (hwrite.trans (Bool.eq_false_of_not_eq_true hr))

theorem encode_of_read {i : Instr} (h : i.isWrite = false) : encode i = wordOf false i.addr 0#8 := by
  rw [encode, h, Instr.data_of_read h]

/-- A read word decodes as the canonical word of its read does. -/
theorem decode_readWord (a : RegAddr) (d : Byte) : decode (wordOf false a d) = decode (wordOf false a 0#8) := by
  obtain ⟨i, hi⟩ := decode_total (wordOf false a d)
  obtain ⟨hread, haddr, -⟩ := decode_wordOf hi
  calc decode (wordOf false a d)
    _ = decode (encode i) := hi.trans (decode_encode i).symm
    _ = decode (wordOf false a 0#8) := by rw [encode_of_read hread, haddr]

/-- Settles O3: both read words decode as the canonical one. -/
theorem readWordsIgnoreData : Obligations.ReadWordsIgnoreData := by
  refine ⟨fun a d d' => (decode_readWord a d).trans (decode_readWord a d').symm, fun i hread => ?_, rfl⟩
  obtain ⟨-, -, hdata⟩ := Laws.WordFields.wordOf_fields false i.addr 0#8
  rw [encode_of_read hread, hdata]

/-- Settles O4: ten of the words are canonical, and `0x05FF` is RD TICK with another D. -/
theorem sampleWordsDecode : Obligations.SampleWordsDecode :=
  ⟨decode_encode (.wrClkpr 0x80), decode_encode (.wrOcra 124), decode_encode (.wrTcfgImsk 2),
    (decode_readWord 0x5 0xFF).trans (decode_encode .rdTick), decode_encode .rdStatus, decode_encode (.wrRowScan 1),
    decode_encode (.wrTxData 0xA5), decode_encode (.wrLed 0x5C), decode_encode (.wrPincfg 0x0F),
    decode_encode .rdRsvdD, decode_encode (.wrRsvdF 0)⟩

namespace Machine

/-! ### The prescaler and the counter (R115, 41_timer.md R170 to R172) -/

/-- R115's table of the timer's clock select: its value and the division, 0 where the timer is stopped. -/
def divisionTable : List (Nat × Nat) := [(0, 0), (1, 1), (2, 8), (3, 64), (4, 256), (5, 1024), (6, 0), (7, 0)]

theorem csDivision_of_table : ∀ cs : BitVec 3, ∀ row ∈ divisionTable, row.1 = cs.toNat → csDivision cs = row.2 := by
  decide

theorem csDivision_ne_zero_iff : ∀ cs : BitVec 3, csDivision cs ≠ 0 ↔ 1 ≤ cs.toNat ∧ cs.toNat ≤ 5 := by decide

theorem running_iff (t : TimerPart) : running t = true ↔ t.tWgm = ctcMode ∧ csDivision t.tCs ≠ 0 := by
  simp [running, csDivision_ne_zero_iff]

section
variable {t : TimerPart}

theorem countEdge_stopped (h : ¬ running t = true) : countEdge t = ({ t with psc := 0#10 }, false) := if_neg h

theorem countEdge_prescaling (h : running t = true) (hpsc : ¬ csDivision t.tCs - 1 ≤ t.psc.toNat) :
    countEdge t = ({ t with psc := t.psc + 1#10 }, false) := by
  rw [countEdge, if_pos h, if_neg hpsc]

theorem countEdge_counting (h : running t = true) (hpsc : csDivision t.tCs - 1 ≤ t.psc.toNat) (hne : t.tcnt ≠ t.tOcra) :
    countEdge t = ({ t with psc := 0#10, tcnt := t.tcnt + 1#8 }, false) := by
  rw [countEdge, if_pos h, if_pos hpsc, if_neg hne]

theorem countEdge_tick (h : running t = true) (hpsc : csDivision t.tCs - 1 ≤ t.psc.toNat) (heq : t.tcnt = t.tOcra) :
    countEdge t = ({ t with psc := 0#10, tcnt := 0#8, tickTgl := !t.tickTgl }, true) := by
  rw [countEdge, if_pos h, if_pos hpsc, if_pos heq]

end

/-- At a tclk edge that is no load, the prescaler, the counter and the tick toggle are those of the count. -/
theorem step_tclk_count {s t : State} (he : s.input.edge = .tclk) (h : step s = .next t)
    (hload : s.timer.reqS2 = s.timer.reqS3) :
    t.timer.psc = (countEdge s.timer).1.psc ∧ t.timer.tcnt = (countEdge s.timer).1.tcnt ∧
    t.timer.tickTgl = (countEdge s.timer).1.tickTgl ∧ t.chg.tickChg = ((countEdge s.timer).2 || s.chg.tickChg) := by
  have hl : loads s.timer = false := by simp [loads, hload]
  rw [step_tclk he h, nextInput_timer, nextInput_chg, tclkEdge_timer, tclkEdge_chg, loadOrCount_of_not_loads hl]
  exact ⟨rfl, rfl, rfl, rfl⟩

/-- Settles O38, by the four cases of the count. -/
theorem tclkPrescalerAndCounter : Obligations.TclkPrescalerAndCounter := by
  intro s t n he hstep hload hn
  obtain rfl : csDivision s.timer.tCs = n := csDivision_of_table s.timer.tCs _ hn rfl
  obtain ⟨hpsc, htcnt, htgl, hchg⟩ := step_tclk_count he hstep hload
  rw [hpsc, htcnt, htgl, hchg]
  split
  · next hrun =>
    have hrunning := (running_iff s.timer).2 hrun
    split
    · next hlast =>
      split
      · next heq => simp [countEdge_tick hrunning hlast heq]
      · next hne => simp [countEdge_counting hrunning hlast hne]
    · next hearly => simp [countEdge_prescaling hrunning hearly]
  · next hstop => simp [countEdge_stopped (mt (running_iff s.timer).1 hstop)]

end Machine
end Sys2Proof
end

section
/-! PROOFS. Family 40_clock_prescaler.md: the read of CLKPR, the two-write protocol, the countdown of its window, and the
permanence of LOCK. -/

namespace Sys2Proof.Machine

/-! ### The prescaler at each kind of step -/

theorem step_clock {s t : State} (h : step s = .next t) :
    (s.input.edge = .hclk ∧ t.clock = clockAt (transactionOf s.input) s) ∨
    (s.input.edge = .tclk ∧ t.clock = s.clock) ∨
    (s.input.edge = .reset ∧ t.clock = .reset s.params) := by
  obtain ⟨he, rfl⟩ | ⟨he, rfl⟩ | ⟨he, rfl⟩ := step_cases h
  · exact .inl ⟨he, nextInput_clock _⟩
  · exact .inr (.inl ⟨he, by rw [nextInput_clock, tclkEdge_clock]⟩)
  · exact .inr (.inr ⟨he, by rw [nextInput_clock, resetStep_clock]⟩)

theorem clockAt_of_not_write {o : Option Instr} (h : ∀ d, o ≠ some (.wrClkpr d)) (s : State) :
    clockAt o s = windowCountdown s.clock := by
  unfold clockAt
  split
  · exact absurd rfl (h _)
  · rfl

theorem clockAt_write (d : Byte) (s : State) : clockAt (some (.wrClkpr d)) s = clkprWrite d s.clock := rfl

/-! ### The read of CLKPR (40_clock_prescaler.md R140) -/

theorem clkprByte_eq (c : ClockPart) :
    clkprByte c = BitVec.ofBool (decide (c.clkWin ≠ 0#3)) ++ BitVec.ofBool c.clkLock ++ 0#2 ++ c.clkps := by
  have hopen : (c.clkWin != 0#3) = decide (c.clkWin ≠ 0#3) := by
    rw [Bool.eq_iff_iff, bne_iff_ne, decide_eq_true_iff]
  rw [clkprByte, hopen]

theorem exec_rdClkpr (s : State) : exec .rdClkpr s = .next (readEdge (clkprByte s.clock) s) := rfl

/-- Settles O11. -/
theorem clkprReadCompletes : Obligations.ClkprReadCompletes := by
  intro s
  rw [exec_rdClkpr, readEdge, clkprByte_eq]

/-! ### The patterns and the branches of a write (R141 to R143) -/

theorem isEnablePattern_iff (d : Byte) : isEnablePattern d = true ↔ d = 0x80#8 := beq_iff_eq

theorem isChangePattern_iff (d : Byte) :
    isChangePattern d = true ↔ d.getLsbD 7 = false ∧ d.extractLsb' 4 3 = 0#3 := by
  rw [isChangePattern, Bool.and_eq_true, Bool.not_eq_true', beq_iff_eq]

/-- The branches of R141 as propositions over the bits of D. -/
theorem clkprWrite_eq (d : Byte) (c : ClockPart) : clkprWrite d c =
    if c.clkLock = false ∧ c.clkWin = 0#3 ∧ d = 0x80#8 then { c with clkWin := 4#3 }
    else if c.clkLock = false ∧ c.clkWin ≠ 0#3 ∧ d.getLsbD 7 = false ∧ d.extractLsb' 4 3 = 0#3 then
      if (d.extractLsb' 0 4).toNat ≤ 8 then { clkps := d.extractLsb' 0 4, clkLock := true, clkWin := 0#3 }
      else { c with clkWin := 0#3 }
    else windowCountdown c := by
  have hopens : (!c.clkLock && c.clkWin == 0#3 && isEnablePattern d) = true ↔
      c.clkLock = false ∧ c.clkWin = 0#3 ∧ d = 0x80#8 := by
    simp [isEnablePattern_iff, and_assoc]
  have hchanges : (!c.clkLock && c.clkWin != 0#3 && isChangePattern d) = true ↔
      c.clkLock = false ∧ c.clkWin ≠ 0#3 ∧ d.getLsbD 7 = false ∧ d.extractLsb' 4 3 = 0#3 := by
    simp [isChangePattern_iff, and_assoc]
  exact if_congr hopens rfl (if_congr hchanges rfl rfl)

theorem exec_wrClkpr (d : Byte) (s : State) :
    exec (.wrClkpr d) s = .next { hclkEdge s with clock := clkprWrite d s.clock } := rfl

/-- Settles O19: the chain of `clkprWrite_eq`, with the countdown of R144 in its last branch. -/
theorem clkprWriteFollowsProtocol : Obligations.ClkprWriteFollowsProtocol := by
  intro d s
  rw [exec_wrClkpr, clkprWrite_eq]
  rfl

theorem clkprWrite_accepts {d : Byte} {c : ClockPart} (hlock : c.clkLock = false) (hwin : c.clkWin ≠ 0#3)
    (hpat : isChangePattern d = true) (hps : (lowNibble d).toNat ≤ 8) :
    clkprWrite d c = { clkps := lowNibble d, clkLock := true, clkWin := 0#3 } := by
  simp [clkprWrite, hlock, hwin, hpat, hps]

/-- A change write that finds the window closed changes nothing (R143). -/
theorem clkprWrite_closed {d : Byte} {c : ClockPart} (hwin : c.clkWin = 0#3) (hd : isEnablePattern d = false) :
    clkprWrite d c = c := by
  obtain ⟨clkps, clkLock, clkWin⟩ := c
  obtain rfl : clkWin = 0#3 := hwin
  simp [clkprWrite, windowCountdown, hd]

/-- The writes 0x00 to 0x08 are the change patterns with CLKPS 0 to 8, and no enable pattern. -/
theorem changeWrite_of_le_eight {d : Byte} (hd : d.toNat ≤ 8) :
    isEnablePattern d = false ∧ isChangePattern d = true ∧ (lowNibble d).toNat ≤ 8 := by
  have hall : ∀ k ≤ 8, isEnablePattern (BitVec.ofNat 8 k) = false ∧ isChangePattern (BitVec.ofNat 8 k) = true ∧
      (lowNibble (BitVec.ofNat 8 k)).toNat ≤ 8 := by decide
  simpa using hall d.toNat hd

/-! ### The window along a run (R142, R144) -/

/-- Settles O25: the edge is the countdown. -/
theorem prescalerWindowCountsDown : Obligations.PrescalerWindowCountsDown := by
  intro s t he hstep hno
  rw [step_hclk he hstep, nextInput_clock]
  simp only [hclkWith, clockAt_of_not_write hno]
  exact windowCountdown_spec s.clock

/-- No reset and no write of CLKPR at an hclk edge. -/
def LeavesClkpr (i : StepInput) : Prop :=
  i.edge ≠ .reset ∧ (i.edge = .hclk → ∀ d, transactionOf i ≠ some (.wrClkpr d))

theorem hclkInputs_cons (i : StepInput) (is : List StepInput) :
    (hclkInputs (i :: is)).length = (if i.edge = .hclk then 1 else 0) + (hclkInputs is).length := by
  by_cases he : i.edge = .hclk <;> simp [hclkInputs, he, Nat.add_comm]

/-- Along a run that leaves CLKPR alone the window counts its hclk edges down, and CLKPS and LOCK stay. -/
theorem clock_of_run {is : List StepInput} {s t : State} (his : ∀ i ∈ is, LeavesClkpr i)
    (hrun : runInputs is s = .next t) :
    t.clock.clkps = s.clock.clkps ∧ t.clock.clkLock = s.clock.clkLock ∧
    t.clock.clkWin.toNat = s.clock.clkWin.toNat - (hclkInputs is).length := by
  induction is generalizing s with
  | nil =>
    obtain rfl : s = t := by simpa [runInputs] using hrun
    exact ⟨rfl, rfl, rfl⟩
  | cons i is ih =>
    obtain ⟨⟨hreset, hno⟩, his⟩ := List.forall_mem_cons.1 his
    obtain ⟨u, hu, ht⟩ := runInputs_cons hrun
    obtain ⟨hps, hlock, hwin⟩ := ih his ht
    rw [hps, hlock, hwin, hclkInputs_cons]
    obtain ⟨he, hc⟩ | ⟨he, hc⟩ | ⟨he, -⟩ := step_clock hu <;> rw [withInput_input] at he
    · obtain ⟨hps', hlock', hwin'⟩ := prescalerWindowCountsDown (s.withInput i) u he hu (hno he)
      rw [hps', hlock', hwin', if_pos he, withInput_clock, Nat.sub_sub]
      exact ⟨rfl, rfl, rfl⟩
    · simp [hc, he]
    · exact absurd he hreset

/-- Settles O53: the window is still open exactly after fewer than four hclk edges. -/
theorem prescalerWindowLastsFourEdges : Obligations.PrescalerWindowLastsFourEdges := by
  intro is s t u d hlock hwin hreset hrun hno hd hexec
  obtain ⟨hps, htlock, htwin⟩ := clock_of_run (fun i hi => ⟨hreset i hi, hno i hi⟩) hrun
  obtain ⟨henable, hpat, hle⟩ := changeWrite_of_le_eight hd
  have hleft : t.clock.clkWin.toNat = 4 - (hclkInputs is).length := by rw [htwin, hwin]; rfl
  obtain rfl : { hclkEdge t with clock := clkprWrite d t.clock } = u := by
    simpa only [exec_wrClkpr, Host.Outcome.next.injEq] using hexec
  split
  · next hfew =>
    have hopen : t.clock.clkWin ≠ 0#3 := fun h0 => by
      rw [h0, BitVec.toNat_zero] at hleft
      omega
    exact clkprWrite_accepts (htlock.trans hlock) hopen hpat hle
  · next hmany =>
    have hclosed : t.clock.clkWin = 0#3 := BitVec.eq_of_toNat_eq (by rw [hleft, BitVec.toNat_zero]; omega)
    calc clkprWrite d t.clock
      _ = t.clock := clkprWrite_closed hclosed henable
      _ = { t.clock with clkWin := 0#3 } := by rw [← hclosed]
      _ = { s.clock with clkWin := 0#3 } := by simp only [hps, htlock]

/-! ### LOCK and CLKPS along a run (R145) -/

/-- The accepted change writes in terms of the write's own branches (R141). -/
theorem configuresAt_iff (i : StepInput) (s : State) : configuresAt i s = true ↔
    i.edge = .hclk ∧ ∃ d, transactionOf i = some (.wrClkpr d) ∧ s.clock.clkLock = false ∧ s.clock.clkWin ≠ 0#3 ∧
      isChangePattern d = true ∧ (lowNibble d).toNat ≤ 8 := by
  unfold configuresAt
  split
  · next d hd => simp [hd, isChangePattern_iff, lowNibble, and_assoc]
  · next hne => simpa using fun _ d hd => absurd hd (hne d)

/-- A write keeps LOCK and CLKPS, or is accepted by an unlocked register and sets LOCK. -/
theorem clkprWrite_lock_cases (d : Byte) (c : ClockPart) :
    ((clkprWrite d c).clkLock = c.clkLock ∧ (clkprWrite d c).clkps = c.clkps) ∨
    (c.clkLock = false ∧ c.clkWin ≠ 0#3 ∧ isChangePattern d = true ∧ (lowNibble d).toNat ≤ 8 ∧
      (clkprWrite d c).clkLock = true) := by
  obtain ⟨-, -, -, hw⟩ | ⟨hlock, hwin, hpat, hps, hw⟩ | ⟨-, -, -, -, hw⟩ | hw := clkprWrite_cases d c <;> rw [hw]
  · exact .inl ⟨rfl, rfl⟩
  · exact .inr ⟨hlock, hwin, hpat, hps, rfl⟩
  · exact .inl ⟨rfl, rfl⟩
  · exact .inl ⟨rfl, rfl⟩

/-- A step keeps LOCK and CLKPS, or sets LOCK by an accepted change write of an unlocked register, or is a reset. -/
theorem step_lock_cases {i : StepInput} {s u : State} (h : step (s.withInput i) = .next u) :
    (u.clock.clkLock = s.clock.clkLock ∧ u.clock.clkps = s.clock.clkps) ∨
    (configuresAt i s = true ∧ s.clock.clkLock = false ∧ u.clock.clkLock = true) ∨
    (i.edge = .reset ∧ u.clock = .reset s.params) := by
  obtain ⟨he, hc⟩ | ⟨-, hc⟩ | ⟨he, hc⟩ := step_clock h <;> rw [hc]
  · rw [withInput_input] at he ⊢
    by_cases hwrite : ∃ d, transactionOf i = some (.wrClkpr d)
    · obtain ⟨d, hd⟩ := hwrite
      rw [hd, clockAt_write, withInput_clock]
      obtain hkept | ⟨hlock, hwin, hpat, hps, hset⟩ := clkprWrite_lock_cases d s.clock
      · exact .inl hkept
      · exact .inr (.inl ⟨(configuresAt_iff i s).2 ⟨he, d, hd, hlock, hwin, hpat, hps⟩, hlock, hset⟩)
    · rw [clockAt_of_not_write (not_exists.1 hwrite)]
      exact .inl ⟨rfl, rfl⟩
  · exact .inl ⟨rfl, rfl⟩
  · exact .inr (.inr ⟨he, rfl⟩)

/-- A locked register keeps LOCK and CLKPS along a run without a reset. -/
theorem locked_of_run {is : List StepInput} {s t : State} (hreset : NoReset is) (hrun : runInputs is s = .next t)
    (hlock : s.clock.clkLock = true) : t.clock.clkLock = true ∧ t.clock.clkps = s.clock.clkps := by
  induction is generalizing s with
  | nil =>
    obtain rfl : s = t := by simpa [runInputs] using hrun
    exact ⟨hlock, rfl⟩
  | cons i is ih =>
    obtain ⟨hi, his⟩ := List.forall_mem_cons.1 hreset
    obtain ⟨u, hu, ht⟩ := runInputs_cons hrun
    obtain ⟨hl, hps⟩ | ⟨-, hunlocked, -⟩ | ⟨he, -⟩ := step_lock_cases hu
    · rw [← hps]
      exact ih his ht (hl.trans hlock)
    · exact absurd (hunlocked.symm.trans hlock) (by decide)
    · exact absurd he hi

/-- An unlocked register holds the CLKPS_RESET of the parameters `p` of its block. -/
def UnlockedAtReset (p : Params) (s : State) : Prop :=
  s.params = p ∧ (s.clock.clkLock = false → s.clock.clkps = BitVec.ofNat 4 p.clkpsReset)

theorem unlockedAtReset_step {p : Params} {s t : State} (h : UnlockedAtReset p s) (hstep : step s = .next t) :
    UnlockedAtReset p t := by
  obtain ⟨rfl, hps⟩ := h
  refine ⟨step_params hstep, fun hunlocked => ?_⟩
  obtain ⟨hl, hkept⟩ | ⟨-, -, hl⟩ | ⟨-, hc⟩ := step_lock_cases (i := s.input) (s := s) hstep
  · rw [hkept]
    exact hps (hl.symm.trans hunlocked)
  · exact absurd (hunlocked.symm.trans hl) (by decide)
  · rw [hc]
    rfl

/-- Without an accepted change write an unlocked register stays unlocked, through resets too. -/
theorem unlocked_of_run {is : List StepInput} {s t : State} (hrun : runInputs is s = .next t)
    (hnone : configurations is s = 0) (hlock : s.clock.clkLock = false) : t.clock.clkLock = false := by
  induction is generalizing s with
  | nil =>
    obtain rfl : s = t := by simpa [runInputs] using hrun
    exact hlock
  | cons i is ih =>
    obtain ⟨u, hu, ht⟩ := runInputs_cons hrun
    rw [configurations, countSteps_cons hu] at hnone
    obtain ⟨hi, his⟩ := Nat.add_eq_zero_iff.1 hnone
    refine ih ht his ?_
    obtain ⟨hl, -⟩ | ⟨hconf, -, -⟩ | ⟨-, hc⟩ := step_lock_cases hu
    · exact hl.trans hlock
    · simp [hconf] at hi
    · rw [hc]
      rfl

/-- Settles O26. -/
theorem lockIsPermanentUntilReset : Obligations.LockIsPermanentUntilReset := by
  refine ⟨fun is s t => locked_of_run, fun p is t hrun => ?_⟩
  obtain ⟨-, hps⟩ : UnlockedAtReset p t :=
    runInputs_keeps (fun _ _ h => h) (fun _ _ => unlockedAtReset_step) ⟨rfl, fun _ => rfl⟩ hrun
  refine ⟨hps, fun hnone => ?_⟩
  have hunlocked := unlocked_of_run hrun hnone rfl
  exact ⟨hunlocked, hps hunlocked⟩

end Sys2Proof.Machine
end

section
/-! PROOFS. Family 41_timer.md: the reads, the staging writes and the commit of the timer configuration, the two sides of
its handshake, the configuration in use while CFG_BUSY is 0, and the tick period. -/

namespace Sys2Proof.Machine

/-! ### Reads and staging writes (41_timer.md R160 to R166) -/

/-- Settles O12: each arm is a read of the committed byte. -/
theorem timerReadsComplete : Obligations.TimerReadsComplete :=
  fun _ => ⟨rfl, rfl, rfl, rfl⟩

theorem lowNibble_setWidth (d : Byte) : (lowNibble d).setWidth 8 = 0#4 ++ d.extractLsb' 0 4 := by
  rw [lowNibble, BitVec.setWidth_eq_append (by decide)]
  exact BitVec.cast_eq _ _

theorem exec_wrTcfgB (d : Byte) (s : State) :
    exec (.wrTcfgB d) s = .next { hclkEdge s with config := { configEdge s with stgB := (lowNibble d).setWidth 8 } } :=
  rfl

/-- Settles O17: the arms write D as it is, but for byte B, which takes its low nibble alone. -/
theorem stagingWritesStoreOneByte : Obligations.StagingWritesStoreOneByte := by
  intro d s
  refine ⟨rfl, rfl, ?_⟩
  rw [exec_wrTcfgB, lowNibble_setWidth, hclkEdge_config]

/-! ### The committed word and the staging at an hclk edge (R161 to R167) -/

theorem isCommit_iff (o : Option Instr) : isCommit o = true ↔ ∃ d, o = some (.wrTcfgImsk d) := by
  unfold isCommit
  split
  · next d => exact iff_of_true rfl ⟨d, rfl⟩
  · next hne => exact iff_of_false (by decide) fun ⟨d, hd⟩ => hne d hd

theorem isCommit_eq_false {o : Option Instr} (h : ∀ d, o ≠ some (.wrTcfgImsk d)) : isCommit o = false :=
  Bool.eq_false_iff.2 fun hk =>
    have ⟨d, hd⟩ := (isCommit_iff o).1 hk
    h d hd

/-- The handshake reaches neither the staging nor the committed word. -/
theorem handshake_frame (commit a : Bool) (c : ConfigPart) :
    ∃ a2 a3 cs wgm ocra req busy pend, handshake commit a c =
      { c with ackS1 := a, ackS2 := a2, ackS3 := a3, xferCs := cs, xferWgm := wgm, xferOcra := ocra, reqTgl := req,
               cfgBusy := busy, cfgPend := pend } := by
  cases hl : launches commit c
  · exact ⟨_, _, _, _, _, _, _, _, handshake_noLaunch hl⟩
  · exact ⟨_, _, _, _, _, _, _, _, handshake_launch hl⟩

/-- The committed bytes after an hclk edge are those of the word with the edge's transaction. -/
theorem configAt_word (o : Option Instr) (s : State) :
    (configAt o s).ocra = (wordAt o s.config).ocra ∧ (configAt o s).tcfgA = (wordAt o s.config).tcfgA ∧
    (configAt o s).tcfgB = (wordAt o s.config).tcfgB ∧ (configAt o s).tcfgImsk = (wordAt o s.config).tcfgImsk := by
  obtain ⟨_, _, _, hc⟩ := configAt_eq_handshake o s
  obtain ⟨_, _, _, _, _, _, _, _, hh⟩ := handshake_frame (isCommit o) (ackFlop s) (wordAt o s.config)
  rw [hc, hh]
  exact ⟨rfl, rfl, rfl, rfl⟩

/-- Without a transaction, an hclk edge keeps the staging. -/
theorem configEdge_staging (s : State) :
    (configEdge s).stgOcra = s.config.stgOcra ∧ (configEdge s).stgA = s.config.stgA ∧
    (configEdge s).stgB = s.config.stgB := by
  obtain ⟨_, _, _, _, _, _, _, _, hh⟩ := handshake_frame false (ackFlop s) s.config
  rw [configEdge, hh]
  exact ⟨rfl, rfl, rfl⟩

theorem configCommit_staging (d : Byte) (s : State) :
    (configCommit d s).stgOcra = s.config.stgOcra ∧ (configCommit d s).stgA = s.config.stgA ∧
    (configCommit d s).stgB = s.config.stgB := by
  obtain ⟨_, _, _, _, _, _, _, _, hh⟩ := handshake_frame true (ackFlop s) (commitWord d s.config)
  rw [configCommit, hh]
  exact ⟨rfl, rfl, rfl⟩

/-- A staging byte is kept by every transaction but the write of its own address. -/
theorem configAt_staging (o : Option Instr) (s : State) :
    ((∀ d, o ≠ some (.wrOcra d)) → (configAt o s).stgOcra = s.config.stgOcra) ∧
    ((∀ d, o ≠ some (.wrTcfgA d)) → (configAt o s).stgA = s.config.stgA) ∧
    ((∀ d, o ≠ some (.wrTcfgB d)) → (configAt o s).stgB = s.config.stgB) := by
  obtain ⟨hocra, ha, hb⟩ := configEdge_staging s
  unfold configAt
  split
  · exact ⟨fun hne => absurd rfl (hne _), fun _ => ha, fun _ => hb⟩
  · exact ⟨fun _ => hocra, fun hne => absurd rfl (hne _), fun _ => hb⟩
  · exact ⟨fun _ => hocra, fun _ => ha, fun hne => absurd rfl (hne _)⟩
  · next d =>
    obtain ⟨hocra', ha', hb'⟩ := configCommit_staging d s
    exact ⟨fun _ => hocra', fun _ => ha', fun _ => hb'⟩
  · exact ⟨fun _ => hocra, fun _ => ha, fun _ => hb⟩

/-- Settles O30. -/
theorem onlyCommitChangesTheWord : Obligations.OnlyCommitChangesTheWord := by
  intro s t he hstep
  rw [step_hclk he hstep, nextInput_config]
  refine ⟨fun hno => ?_, configAt_staging _ s⟩
  have hword := configAt_word (transactionOf s.input) s
  rwa [wordAt_of_no_commit (isCommit_eq_false hno)] at hword

/-- CFG_BUSY is 1 while a transfer is launched or not yet acknowledged (R168). -/
theorem configAt_cfgBusy (o : Option Instr) (s : State) :
    (configAt o s).cfgBusy =
      (launches (isCommit o) s.config || (s.config.cfgBusy && !ackSeen s.config)) := by
  cases hl : launches (isCommit o) s.config
  · obtain ⟨-, hb, -⟩ := configAt_noLaunch o hl
    rw [hb, Bool.false_or]
  · obtain ⟨-, hb, -⟩ := configAt_launch o hl
    rw [hb, Bool.true_or]

/-- A commit is launched at once, or it waits behind a transfer that is not yet acknowledged (R168). -/
theorem launches_or_waits_of_commit (c : ConfigPart) : (launches true c || (c.cfgBusy && !ackSeen c)) = true := by
  cases hb : c.cfgBusy <;> cases ha : ackSeen c <;> simp [launches, hb, ha]

/-- A commit leaves TICK 1 only where a tick is set at its edge (42_tick_flag.md R206). -/
theorem tickEdge_true_tickPend (s : State) : (tickEdge true s).tickPend = tickSet s := by
  rw [tickEdge, Bool.not_true, Bool.and_false, Bool.or_false]

/-- Settles O18. -/
theorem commitWritesWholeWord : Obligations.CommitWritesWholeWord := by
  intro d s
  obtain ⟨hocra, ha, hb, himsk⟩ := configAt_word (some (.wrTcfgImsk d)) s
  obtain ⟨hstgOcra, hstgA, hstgB⟩ := configCommit_staging d s
  have hbusy := (configAt_cfgBusy (some (.wrTcfgImsk d)) s).trans (launches_or_waits_of_commit s.config)
  exact ⟨_, exec_eq_hclkWith _ s, hocra, ha, hb, himsk, hstgOcra, hstgA, hstgB, hbusy, tickEdge_true_tickPend s, rfl⟩

/-! ### The hclk side of the handshake (R168) -/

/-- The timer part (cs, wgm, ocra) of the staging. -/
def stagedTimer (c : ConfigPart) : BitVec 3 × BitVec 3 × Byte :=
  (c.stgB.extractLsb' 0 3, BitVec.ofBool (c.stgB.getLsbD 3) ++ c.stgA.extractLsb' 0 2, c.stgOcra)

theorem csOf_lowNibble (d : Byte) : csOf (lowNibble d) = d.extractLsb' 0 3 := by
  rw [csOf, lowNibble, BitVec.extractLsb'_extractLsb'_of_le (by decide)]

theorem wgmOf_lowNibble (b a : Byte) : wgmOf (lowNibble b) a = BitVec.ofBool (b.getLsbD 3) ++ a.extractLsb' 0 2 := by
  rw [wgmOf, lowNibble, BitVec.getLsbD_extractLsb']
  rfl

theorem committedTimer_commitWord (d : Byte) (c : ConfigPart) : committedTimer (commitWord d c) = stagedTimer c := by
  rw [stagedTimer, ← csOf_lowNibble, ← wgmOf_lowNibble]
  rfl

/-- R168's `cur`: the staged timer part where the edge commits, else the committed one. -/
theorem committedTimer_configAt (o : Option Instr) (s : State) :
    committedTimer (configAt o s) = if isCommit o then stagedTimer s.config else committedTimer s.config := by
  obtain ⟨hocra, ha, hb, -⟩ := configAt_word o s
  rw [committedTimer, hocra, ha, hb, ← committedTimer]
  split
  · next hk =>
    obtain ⟨d, rfl⟩ := (isCommit_iff o).1 hk
    exact committedTimer_commitWord d s.config
  · next hk => rw [wordAt_of_no_commit (Bool.eq_false_iff.2 hk)]

/-- The value in flight is taken at a launch alone. -/
theorem transferredTimer_configAt (o : Option Instr) (s : State) :
    transferredTimer (configAt o s) =
      if launches (isCommit o) s.config then committedTimer (configAt o s) else transferredTimer s.config := by
  cases hl : launches (isCommit o) s.config
  · obtain ⟨-, -, -, hx⟩ := configAt_noLaunch o hl
    rw [hx, if_neg (by decide)]
  · obtain ⟨-, -, -, hx⟩ := configAt_launch o hl
    rw [hx, if_pos rfl]

/-- The request toggles at a launch alone. -/
theorem configAt_reqTgl (o : Option Instr) (s : State) :
    (configAt o s).reqTgl = if launches (isCommit o) s.config then !s.config.reqTgl else s.config.reqTgl := by
  cases hl : launches (isCommit o) s.config
  · obtain ⟨hq, -⟩ := configAt_noLaunch o hl
    rw [hq, if_neg (by decide)]
  · obtain ⟨hq, -⟩ := configAt_launch o hl
    rw [hq, if_pos rfl]

/-- A commit that finds a transfer unacknowledged waits, and a launch takes what waits. -/
theorem configAt_cfgPend (o : Option Instr) (s : State) :
    (configAt o s).cfgPend = (!launches (isCommit o) s.config &&
      (s.config.cfgPend || (s.config.cfgBusy && !ackSeen s.config && isCommit o))) := by
  cases hl : launches (isCommit o) s.config
  · obtain ⟨-, -, hp, -⟩ := configAt_noLaunch o hl
    have hunseen : s.config.cfgBusy = true → isCommit o = true → ackSeen s.config = false := fun hb hk => by
      simpa [launches, hb, hk] using hl
    rw [hp, Bool.not_false, Bool.true_and]
    cases hb : s.config.cfgBusy
    · simp
    · cases hk : isCommit o
      · simp
      · simp [hunseen hb hk]
  · obtain ⟨-, -, hp, -⟩ := configAt_launch o hl
    rw [hp, Bool.not_true, Bool.false_and]

/-- Settles O29: one lemma for each line of R168. -/
theorem handshakeHclkSide : Obligations.HandshakeHclkSide := by
  intro s t commit he hstep hcommit
  obtain rfl : commit = isCommit (transactionOf s.input) :=
    Bool.eq_iff_iff.2 (hcommit.trans (isCommit_iff _).symm)
  obtain ⟨h1, h2, h3⟩ := configAt_ackFlops (s := s) (transactionOf s.input)
  rw [step_hclk he hstep, nextInput_config, nextInput_chg]
  refine ⟨h1, rfl, h2, h3, ?xfer, configAt_reqTgl _ s, rfl, configAt_cfgBusy _ s, configAt_cfgPend _ s⟩
  case xfer =>
    have hxfer := transferredTimer_configAt (transactionOf s.input) s
    rwa [committedTimer_configAt] at hxfer

/-! ### The tclk side of the handshake (R169) -/

/-- Settles O37, by whether the edge is a load. -/
theorem tclkLoadsTransferredConfiguration : Obligations.TclkLoadsTransferredConfiguration := by
  intro s t he hstep
  rw [step_tclk he hstep, nextInput_timer, nextInput_chg, tclkEdge_timer, tclkEdge_chg]
  refine ⟨rfl, rfl, rfl, rfl, fun hne => ?load, fun heq => ?count⟩
  case load =>
    have hl : loads s.timer = true := bne_iff_ne.2 hne
    rw [loadOrCount_of_loads hl, hl]
    exact ⟨rfl, rfl, rfl, rfl, rfl, rfl, rfl, rfl, rfl⟩
  case count =>
    have hl : loads s.timer = false := by rw [loads, heq, bne_self_eq_false]
    obtain ⟨hcs, hwgm, hocra, hack, -⟩ := countEdge_spec s.timer
    rw [loadOrCount_of_not_loads hl, hl]
    exact ⟨hcs, hwgm, hocra, hack, rfl⟩

/-! ### The configuration in use while CFG_BUSY is 0 (R176) -/

/-- With CFG_BUSY 0 a commit would launch at once, so no request is open. -/
theorem reqTgl_eq_ackTgl_of_idle {s : State} (h : HandshakeOrder s) (hidle : s.config.cfgBusy = false) :
    s.config.reqTgl = s.timer.ackTgl :=
  have ⟨_, hclosed⟩ := reqTgl_eq_of_launches (k := true) h (by simp [launches, hidle])
  hclosed

/-- Settles O48: with CFG_BUSY 0 nothing waits and no request is open, so the value in use, the one in flight and the
committed one are the same. -/
theorem configIdleMeansLoaded : Obligations.ConfigIdleMeansLoaded := by
  intro p s hp hreach hidle
  obtain ⟨-, -, -, horder, hcommitted, hloaded⟩ := blockInv_of_reached hp hreach
  obtain ⟨-, -, -, -, hpend⟩ := id horder
  have hnone : s.config.cfgPend = false := Bool.eq_false_iff.2 fun h1 => absurd ((hpend h1).symm.trans hidle) (by decide)
  calc loadedTimer s.timer
    _ = transferredTimer s.config := hloaded (reqTgl_eq_ackTgl_of_idle horder hidle)
    _ = committedTimer s.config := hcommitted hnone

/-! ### The tick period (R174)

In a period of `(OCRA + 1) * N` tclk edges the counter and the prescaler count the place; the edge that would pass the end
of the period is the tick event. -/

theorem csDivision_le : ∀ cs : BitVec 3, csDivision cs ≤ 1024 := by decide

/-- The tclk edges from one tick event to the next: `(OCRA + 1) * N`. -/
def tickPeriod (t : TimerPart) : Nat := (t.tOcra.toNat + 1) * csDivision t.tCs

/-- The tclk edges since the period began. -/
def tickPhase (t : TimerPart) : Nat := t.tcnt.toNat * csDivision t.tCs + t.psc.toNat

/-- The timer runs, inside a period. -/
structure InPeriod (t : TimerPart) : Prop where
  running : running t = true
  psc_lt : t.psc.toNat < csDivision t.tCs
  tcnt_le : t.tcnt.toNat ≤ t.tOcra.toNat

section
variable {t : TimerPart}

theorem tickPeriod_pos (h : InPeriod t) : 0 < tickPeriod t :=
  Nat.mul_pos t.tOcra.toNat.succ_pos (Nat.zero_lt_of_lt h.psc_lt)

theorem tickPhase_div_tickPeriod (h : InPeriod t) : tickPhase t / tickPeriod t = 0 := by
  refine Nat.div_eq_of_lt ?_
  calc tickPhase t
    _ < t.tcnt.toNat * csDivision t.tCs + csDivision t.tCs := Nat.add_lt_add_left h.psc_lt _
    _ = (t.tcnt.toNat + 1) * csDivision t.tCs := (Nat.succ_mul _ _).symm
    _ ≤ tickPeriod t := Nat.mul_le_mul_right _ (Nat.succ_le_succ h.tcnt_le)

/-- A count edge moves the place one on, and a tick event takes the whole period back. -/
theorem countEdge_tickPhase (h : InPeriod t) :
    (countEdge t).1.psc.toNat < csDivision t.tCs ∧
    tickPhase (countEdge t).1 + (countEdge t).2.toNat * tickPeriod t = tickPhase t + 1 := by
  obtain ⟨hrun, hpsc, htcnt⟩ := h
  by_cases hlast : csDivision t.tCs - 1 ≤ t.psc.toNat
  · have hpsc' : t.psc.toNat + 1 = csDivision t.tCs := by omega
    have hfull : tickPhase t + 1 = (t.tcnt.toNat + 1) * csDivision t.tCs := by
      rw [tickPhase, Nat.add_assoc, hpsc', Nat.succ_mul]
    by_cases heq : t.tcnt = t.tOcra
    · rw [countEdge_tick hrun hlast heq, hfull, heq]
      exact ⟨Nat.zero_lt_of_lt hpsc, by simp [tickPhase, tickPeriod]⟩
    · have hlt : t.tcnt.toNat < t.tOcra.toNat := lt_of_le_of_ne htcnt fun hv => heq (BitVec.eq_of_toNat_eq hv)
      have hnext : (t.tcnt + 1#8).toNat = t.tcnt.toNat + 1 :=
        BitVec.toNat_add_of_lt (lt_of_le_of_lt hlt t.tOcra.isLt)
      rw [countEdge_counting hrun hlast heq, hfull]
      exact ⟨Nat.zero_lt_of_lt hpsc, by simp [tickPhase, hnext]⟩
  · have hle := csDivision_le t.tCs
    have hone : (1#10).toNat = 1 := rfl
    have hnext : (t.psc + 1#10).toNat = t.psc.toNat + 1 := BitVec.toNat_add_of_lt (by omega)
    rw [countEdge_prescaling hrun hlast]
    exact ⟨by simp only [hnext]; omega, by simp [tickPhase, hnext, Nat.add_assoc]⟩

theorem inPeriod_countEdge (h : InPeriod t) : InPeriod (countEdge t).1 := by
  obtain ⟨hcs, hwgm, hocra, -, -, -, -, -, htcnt⟩ := countEdge_spec t
  obtain ⟨hpsc, -⟩ := countEdge_tickPhase h
  exact ⟨(running_congr hcs hwgm).trans h.running, hcs ▸ hpsc, hocra ▸ htcnt h.tcnt_le⟩

theorem tickPeriod_countEdge (t : TimerPart) : tickPeriod (countEdge t).1 = tickPeriod t := by
  obtain ⟨hcs, -, hocra, -⟩ := countEdge_spec t
  rw [tickPeriod, hcs, hocra, tickPeriod]

end

/-- The timer runs inside a period, no request is open and no commit waits. -/
structure SteadyTimer (s : State) : Prop where
  inPeriod : InPeriod s.timer
  order : HandshakeOrder s
  closed : s.config.reqTgl = s.timer.ackTgl
  none_waits : s.config.cfgPend = false

/-- No reset and no commit at an hclk edge. -/
def LeavesWord (i : StepInput) : Prop := i.edge ≠ .reset ∧ (i.edge = .hclk → isCommit (transactionOf i) = false)

section
variable {s : State}

theorem SteadyTimer.nextInput (h : SteadyTimer s) : SteadyTimer (nextInput s) :=
  ⟨by simpa using h.inPeriod, handshakeOrder_nextInput h.order, by simpa using h.closed, by simpa using h.none_waits⟩

/-- Without a commit and with none waiting, nothing launches. -/
theorem SteadyTimer.hclkWith {o : Option Instr} (h : SteadyTimer s) (hk : isCommit o = false) :
    SteadyTimer (hclkWith o s) := by
  have hl : launches (isCommit o) s.config = false := by simp [launches, hk, h.none_waits]
  obtain ⟨hq, -, hp, -⟩ := configAt_noLaunch o hl
  exact ⟨h.inPeriod, handshakeOrder_hclkWith o h.order, hq.trans h.closed, hp.trans (by simp [h.none_waits, hk])⟩

/-- A request line that ends as it begins holds no request: the two changes of one that is under way would not fit. -/
theorem eq_of_closed_chain {q s1 s2 a1 a2 a3 : Bool} (hone : chainChanges [q, s1, s2, q, a1, a2, a3] ≤ 1) : s2 = q := by
  by_contra hne
  by_cases h1 : q = s1
  · simp [chainChanges, ← h1, hne, Ne.symm hne] at hone
  · simp [chainChanges, h1, hne] at hone

/-- With no request open the last two request flops hold the request, so the next tclk edge is no load. -/
theorem reqFlops_of_closed (h : HandshakeOrder s) (hclosed : s.config.reqTgl = s.timer.ackTgl) :
    s.timer.reqS2 = s.config.reqTgl ∧ s.timer.reqS3 = s.config.reqTgl := by
  obtain ⟨hcount, hack, -⟩ := h
  have h3 : s.timer.reqS3 = s.config.reqTgl := hack.symm.trans hclosed.symm
  have hone : chainChanges (handshakeChain s) ≤ 1 := hcount ▸ Bool.toNat_le _
  rw [handshakeChain, h3] at hone
  exact ⟨eq_of_closed_chain hone, h3⟩

/-- At a tclk edge a steady timer counts, in its prescaler, its counter and its configuration. -/
theorem SteadyTimer.timer_tclkEdge (h : SteadyTimer s) :
    ∃ r1 r2 r3, (tclkEdge s).timer = { (countEdge s.timer).1 with reqS1 := r1, reqS2 := r2, reqS3 := r3 } := by
  obtain ⟨h2, h3⟩ := reqFlops_of_closed h.order h.closed
  have hl : loads s.timer = false := by rw [loads, h2, h3, bne_self_eq_false]
  rw [tclkEdge_timer, loadOrCount_of_not_loads hl]
  exact ⟨_, _, _, rfl⟩

theorem SteadyTimer.tclkEdge (h : SteadyTimer s) : SteadyTimer (tclkEdge s) := by
  obtain ⟨_, _, _, ht⟩ := h.timer_tclkEdge
  obtain ⟨hrun, hpsc, htcnt⟩ := inPeriod_countEdge h.inPeriod
  obtain ⟨h2, -⟩ := reqFlops_of_closed h.order h.closed
  exact ⟨ht ▸ ⟨hrun, hpsc, htcnt⟩, handshakeOrder_tclkEdge h.order, ((tclkEdge_ackTgl h.order).trans h2).symm,
    h.none_waits⟩

/-- A step that leaves the word alone keeps a steady timer and its period. Its place moves on by the tclk edge, if it is
one, but for the whole period that a tick event takes, and the tick event toggles the tick. -/
theorem SteadyTimer.step {i : StepInput} {u : State} (h : SteadyTimer s) (hi : LeavesWord i)
    (hu : step (s.withInput i) = .next u) :
    SteadyTimer u ∧ tickPeriod u.timer = tickPeriod s.timer ∧ ∃ tick : Bool,
      u.timer.tickTgl = (s.timer.tickTgl ^^ tick) ∧
      tickPhase u.timer + tick.toNat * tickPeriod s.timer = tickPhase s.timer + (tclkInputs [i]).length := by
  obtain ⟨hreset, hno⟩ := hi
  have hin : SteadyTimer (s.withInput i) := ⟨h.inPeriod, h.order, h.closed, h.none_waits⟩
  obtain ⟨he, rfl⟩ | ⟨he, rfl⟩ | ⟨he, -⟩ := step_cases hu
  · rw [withInput_input] at he
    refine ⟨(hin.hclkWith (hno he)).nextInput, ?_⟩
    rw [nextInput_timer, hclkWith_timer, withInput_timer, tclkInputs_cons_hclk he]
    exact ⟨rfl, false, by simp, by simp [tclkInputs]⟩
  · rw [withInput_input] at he
    refine ⟨hin.tclkEdge.nextInput, ?_⟩
    obtain ⟨_, _, _, ht⟩ := hin.timer_tclkEdge
    obtain ⟨-, -, -, -, -, -, -, htgl, -⟩ := countEdge_spec s.timer
    obtain ⟨-, hphase⟩ := countEdge_tickPhase h.inPeriod
    rw [nextInput_timer, ht, tclkInputs_cons_tclk he]
    exact ⟨tickPeriod_countEdge s.timer, _, htgl, hphase⟩
  · exact absurd he hreset

end

/-- Along a run that leaves the word alone, the tick has toggled once for each whole period, counted from the place of
the start. -/
theorem tickTgl_of_run {is : List StepInput} {s t : State} (his : ∀ i ∈ is, LeavesWord i) (h : SteadyTimer s)
    (hrun : runInputs is s = .next t) :
    t.timer.tickTgl =
      (s.timer.tickTgl ^^ ((tickPhase s.timer + (tclkInputs is).length) / tickPeriod s.timer).bodd) := by
  induction is generalizing s with
  | nil =>
    obtain rfl : s = t := by simpa [runInputs] using hrun
    simp [tclkInputs, tickPhase_div_tickPeriod h.inPeriod]
  | cons i is ih =>
    obtain ⟨hi, his⟩ := List.forall_mem_cons.1 his
    obtain ⟨u, hu, ht⟩ := runInputs_cons hrun
    obtain ⟨hsteady, hperiod, tick, htgl, hphase⟩ := h.step hi hu
    have hlen : (tclkInputs (i :: is)).length = (tclkInputs [i]).length + (tclkInputs is).length := by
      rw [← List.singleton_append, tclkInputs, List.filter_append, List.length_append]
      rfl
    have hplace : tickPhase s.timer + (tclkInputs (i :: is)).length =
        tickPhase u.timer + (tclkInputs is).length + tick.toNat * tickPeriod s.timer := by
      omega
    rw [ih his hsteady ht, htgl, hperiod, hplace, Nat.add_mul_div_right _ _ (tickPeriod_pos h.inPeriod), Nat.bodd_add]
    cases tick <;> simp

/-- Settles O54: the run starts steady at place 0 of a period. -/
theorem tickPeriodIsExact : Obligations.TickPeriodIsExact := by
  intro is s t hrun hpsc htcnt horder hclosed hpend hreset hno hsteps
  obtain ⟨-, hdiv⟩ := (running_iff s.timer).1 hrun
  have hin : InPeriod s.timer := ⟨hrun, by simpa [hpsc] using Nat.pos_of_ne_zero hdiv, by simp [htcnt]⟩
  have hleaves : ∀ i ∈ is, LeavesWord i := fun i hi => ⟨hreset i hi, fun he => isCommit_eq_false (hno i hi he)⟩
  have hstart : tickPhase s.timer = 0 := by simp [tickPhase, hpsc, htcnt]
  rw [tickTgl_of_run hleaves ⟨hin, horder, hclosed, hpend⟩ hsteps, hstart, Nat.zero_add, Nat.mod_two_of_bodd,
    ← tickPeriod]
  cases s.timer.tickTgl <;> simp

end Sys2Proof.Machine
end

section
/-! PROOFS. Family 42_tick_flag.md: the synchronizer of the tick and its pulse, the flag's update, the tick interrupt,
and the polls along a run. -/

namespace Sys2Proof.Machine

/-! ### The tick part at each kind of step (42_tick_flag.md R201, R206) -/

theorem step_tick_hclk {s t : State} (he : s.input.edge = .hclk) (h : step s = .next t) :
    t.tick = tickEdge (isPoll (transactionOf s.input) || isCommit (transactionOf s.input)) s := by
  rw [step_hclk he h, nextInput_tick]
  rfl

theorem step_tick_tclk {s t : State} (he : s.input.edge = .tclk) (h : step s = .next t) : t.tick = s.tick := by
  rw [step_tclk he h, nextInput_tick, tclkEdge_tick]

theorem isPoll_iff (o : Option Instr) : isPoll o = true ↔ o = some .rdTick := by
  unfold isPoll
  split
  · exact iff_of_true rfl rfl
  · next hne => exact iff_of_false (by decide) hne

/-- An edge has at most one transaction. -/
theorem isCommit_of_isPoll {o : Option Instr} (h : isPoll o = true) : isCommit o = false := by
  rw [(isPoll_iff o).1 h]
  rfl

/-- Settles O27: the edge's clear is its poll or its commit. -/
theorem tickFlagUpdate : Obligations.TickFlagUpdate := by
  intro s t poll commit hstep hpoll hcommit
  obtain rfl : poll = isPoll (transactionOf s.input) := Bool.eq_iff_iff.2 (hpoll.trans (isPoll_iff _).symm)
  obtain rfl : commit = isCommit (transactionOf s.input) := Bool.eq_iff_iff.2 (hcommit.trans (isCommit_iff _).symm)
  refine ⟨fun ⟨hp, hc⟩ => ?once, fun he => ?hclk, fun he => ?tclk⟩
  case once => exact absurd (hc.symm.trans (isCommit_of_isPoll hp)) (by decide)
  case hclk =>
    rw [step_tick_hclk he hstep]
    rfl
  case tclk => rw [step_tick_tclk he hstep]

/-- Settles O28. -/
theorem tickSynchronizerChain : Obligations.TickSynchronizerChain := by
  intro s t hstep
  refine ⟨fun he => ?hclk, fun he => ?tclk⟩
  case hclk =>
    rw [step_tick_hclk he hstep, step_hclk he hstep, nextInput_chg]
    exact ⟨rfl, rfl, rfl, rfl⟩
  case tclk =>
    rw [step_tick_tclk he hstep]
    exact ⟨rfl, rfl, rfl⟩

/-! ### The poll and the ignored writes (R207, R208, R210) -/

/-- Settles O15: a poll is the edge that clears the flag, with the flag's byte returned. -/
theorem pollReturnsAndClearsTick : Obligations.PollReturnsAndClearsTick :=
  fun s => ⟨_, exec_eq_hclkWith .rdTick s, rfl, tickEdge_true_tickPend s, rfl⟩

/-- Settles O16: each of the six arms is `hclkEdge`. -/
theorem ignoredWritesChangeNothing : Obligations.IgnoredWritesChangeNothing :=
  fun _ _ => ⟨rfl, rfl, rfl, rfl, rfl, rfl⟩

/-! ### The tick interrupt (R211) -/

/-- Without a reset and a commit, the mask of the interrupt stays. -/
theorem step_tcfgImsk {s t : State} (hi : LeavesWord s.input) (h : step s = .next t) :
    t.config.tcfgImsk = s.config.tcfgImsk := by
  obtain ⟨hreset, hno⟩ := hi
  obtain ⟨he, rfl⟩ | ⟨-, rfl⟩ | ⟨he, -⟩ := step_cases h
  · obtain ⟨-, -, -, himsk⟩ := configAt_word (transactionOf s.input) s
    rw [wordAt_of_no_commit (hno he)] at himsk
    rw [nextInput_config]
    exact himsk
  · rw [nextInput_config, tclkEdge_config]
  · exact absurd he hreset

/-- Settles O43: the edge clears neither the flag nor the mask. -/
theorem tickIrqHoldsUntilCleared : Obligations.TickIrqHoldsUntilCleared := by
  intro s t hstep hreset hirq hno
  have hcommit (he : s.input.edge = .hclk) : isCommit (transactionOf s.input) = false :=
    have ⟨_, hk⟩ := hno he
    isCommit_eq_false hk
  obtain ⟨hpend, hmask⟩ : s.tick.tickPend = true ∧ ociea s.config = true := Bool.and_eq_true_iff.1 hirq
  have hmask' : ociea t.config = true := by rw [ociea, step_tcfgImsk ⟨hreset, hcommit⟩ hstep, ← ociea, hmask]
  have hpend' : t.tick.tickPend = true := by
    cases he : s.input.edge with
    | hclk =>
      obtain ⟨hpoll, -⟩ := hno he
      have hnopoll : isPoll (transactionOf s.input) = false :=
        Bool.eq_false_iff.2 fun hp => hpoll ((isPoll_iff _).1 hp)
      simp [step_tick_hclk he hstep, tickEdge, hnopoll, hcommit he, hpend]
    | tclk => rw [step_tick_tclk he hstep, hpend]
    | reset => exact absurd he hreset
  exact Bool.and_eq_true_iff.2 ⟨hpend', hmask'⟩

/-! ### The changes in the crossing (R201, R202, R214) -/

/-- A tick event toggles the tick; a load does not. -/
theorem loadOrCount_tickTgl (s : State) : (loadOrCount s).1.tickTgl = (s.timer.tickTgl ^^ tickEvent s) := by
  rw [tickEvent]
  cases hl : loads s.timer
  · obtain ⟨-, -, -, -, -, -, -, htgl, -⟩ := countEdge_spec s.timer
    rw [loadOrCount_of_not_loads hl, htgl]
  · rw [loadOrCount_of_loads hl, Bool.xor_false]
    rfl

theorem chainChanges_xor_head {a b : Bool} {l : List Bool} {e : Bool} (h : e = true → b = a) :
    chainChanges ((a ^^ e) :: b :: l) = chainChanges (a :: b :: l) + e.toNat := by
  cases e
  · simp
  · simp [chainChanges, h rfl, Nat.add_comm]

/-- The tick flops shift, and a change at their end leaves as the pulse. -/
theorem chainChanges_shift_tick {q s1 s2 s3 f : Bool} (hf : f = q ∨ f = s1) :
    chainChanges [q, f, s1, s2] + (s2 != s3).toNat = chainChanges [q, s1, s2, s3] := by
  have hend : (s2 != s3).toNat = if s2 = s3 then 0 else 1 := by cases s2 <;> cases s3 <;> rfl
  rw [chainChanges_insert _ hf, hend]
  simp only [chainChanges]
  omega

/-- Settles O56: a tick event changes the head of the chain, and an hclk edge shifts the chain by one place. -/
theorem everyTickEventMakesOnePulse : Obligations.EveryTickEventMakesOnePulse := by
  intro s t hstep
  refine ⟨fun he hfollowed => ?tclk, fun he hlate => ?hclk⟩
  case tclk =>
    rw [ticksInFlight, step_tclk he hstep, nextInput_timer, nextInput_tick, tclkEdge_timer, tclkEdge_tick,
      loadOrCount_tickTgl]
    exact chainChanges_xor_head hfollowed
  case hclk =>
    rw [ticksInFlight, step_hclk he hstep, nextInput_timer, nextInput_tick, hclkWith_timer]
    exact chainChanges_shift_tick (firstFlop_between fun hchg => (hlate hchg).symm)

/-! ### The pulse of one tick event (R203)

Without a tick event the toggle stands still, and the tick flops shift its values through. -/

/-- What `tick_s3` holds after `n` hclk edges, where no tick event comes and the first of them draws `d`. -/
def tickLine (d : Bool) (s : State) : Nat → Bool
  | 0 => s.tick.tickS3
  | 1 => s.tick.tickS2
  | 2 => s.tick.tickS1
  | 3 => firstFlop s.chg.tickChg d s.timer.tickTgl
  | _ + 4 => s.timer.tickTgl

/-- The draw of the tick crossing at the first hclk edge of a run. -/
def firstTickDraw (is : List StepInput) : Bool := ((hclkInputs is).head?.map StepInput.tickDraw).getD false

theorem firstTickDraw_eq {is : List StepInput} {i : StepInput} (h : (hclkInputs is).head? = some i) :
    firstTickDraw is = i.tickDraw := by
  simp [firstTickDraw, h]

theorem firstTickDraw_cons_of_ne {i : StepInput} (he : i.edge ≠ .hclk) (is : List StepInput) :
    firstTickDraw (i :: is) = firstTickDraw is := by
  simp [firstTickDraw, hclkInputs, he]

theorem firstTickDraw_cons_hclk {i : StepInput} (he : i.edge = .hclk) (is : List StepInput) :
    firstTickDraw (i :: is) = i.tickDraw :=
  firstTickDraw_eq (by simp [hclkInputs, he])

theorem tickLine_nextInput (d : Bool) (s : State) : tickLine d (nextInput s) = tickLine d s := by
  unfold nextInput
  split <;> rfl

/-- An hclk edge moves one place along the line, and only its own draw is read. -/
theorem tickLine_hclkWith (d : Bool) (o : Option Instr) (s : State) (n : Nat) :
    tickLine d (hclkWith o s) n = tickLine s.input.tickDraw s (n + 1) := by
  match n with
  | 0 | 1 | 2 | 3 | _ + 4 => rfl

theorem tickLine_tclkEdge {s : State} (h : tickEvent s = false) (d : Bool) :
    tickLine d (tclkEdge s) = tickLine d s := by
  have htgl : (tclkEdge s).timer.tickTgl = s.timer.tickTgl := by
    rw [tclkEdge_timer, loadOrCount_tickTgl, h, Bool.xor_false]
  have hchg : (tclkEdge s).chg.tickChg = s.chg.tickChg := by
    rw [tclkEdge_chg, ← tickEvent, h, Bool.false_or]
  funext n
  match n with
  | 0 | 1 | 2 => rfl
  | 3 => rw [tickLine, tickLine, htgl, hchg]
  | _ + 4 => exact htgl

/-- Along a run without a tick event each hclk edge moves one place along the line. -/
theorem tickLine_of_run {is : List StepInput} {s t : State} (hreset : NoReset is) (hnone : tickEvents is s = 0)
    (hrun : runInputs is s = .next t) :
    t.tick.tickS3 = tickLine (firstTickDraw is) s (hclkInputs is).length ∧
    t.tick.tickS2 = tickLine (firstTickDraw is) s ((hclkInputs is).length + 1) := by
  induction is generalizing s with
  | nil =>
    obtain rfl : s = t := by simpa [runInputs] using hrun
    exact ⟨rfl, rfl⟩
  | cons i is ih =>
    obtain ⟨hi, his⟩ := List.forall_mem_cons.1 hreset
    obtain ⟨u, hu, ht⟩ := runInputs_cons hrun
    rw [tickEvents, countSteps_cons hu] at hnone
    obtain ⟨hhere, hrest⟩ := Nat.add_eq_zero_iff.1 hnone
    obtain ⟨h3, h2⟩ := ih his hrest ht
    rw [h3, h2, hclkInputs_cons]
    obtain ⟨he, rfl⟩ | ⟨he, rfl⟩ | ⟨he, -⟩ := step_cases hu
    · rw [withInput_input] at he
      rw [tickLine_nextInput, tickLine_hclkWith, tickLine_hclkWith, firstTickDraw_cons_hclk he, if_pos he,
        Nat.add_comm 1]
      exact ⟨rfl, rfl⟩
    · rw [withInput_input] at he
      have hne : i.edge ≠ .hclk := by simp [he]
      have hquiet : tickEvent s = false := by simpa [he] using hhere
      rw [tickLine_nextInput, tickLine_tclkEdge (s := s.withInput i) hquiet, firstTickDraw_cons_of_ne hne, if_neg hne,
        Nat.zero_add]
      exact ⟨rfl, rfl⟩
    · exact absurd he hi

/-- In the line of a fresh tick event whose first flop draws `d`, the new value comes at place 3 or 4. -/
theorem tickLine_of_fresh {s : State} (hfresh : s.chg.tickChg = true) (h1 : s.tick.tickS1 = !s.timer.tickTgl)
    (h2 : s.tick.tickS2 = !s.timer.tickTgl) (h3 : s.tick.tickS3 = !s.timer.tickTgl) (d : Bool) (n : Nat) :
    tickLine d s n = s.timer.tickTgl ↔ (if d = s.timer.tickTgl then 3 else 4) ≤ n := by
  have hplace : 3 ≤ (if d = s.timer.tickTgl then 3 else 4) ∧ (if d = s.timer.tickTgl then 3 else 4) ≤ 4 := by
    split <;> decide
  match n with
  | 0 => exact iff_of_false (by simp [tickLine, h3]) (by omega)
  | 1 => exact iff_of_false (by simp [tickLine, h2]) (by omega)
  | 2 => exact iff_of_false (by simp [tickLine, h1]) (by omega)
  | 3 => by_cases hd : d = s.timer.tickTgl <;> simp [tickLine, firstFlop, hfresh, hd]
  | n + 4 => exact iff_of_true rfl (by omega)

theorem ne_iff_of_eq_iff {a b q : Bool} {p r : Prop} (ha : a = q ↔ p) (hb : b = q ↔ r) : a ≠ b ↔ ¬(p ↔ r) := by
  rw [← ha, ← hb]
  cases a <;> cases b <;> cases q <;> decide

/-- Settles O55: the pulse is at the place of the line before which the new value comes. -/
theorem tickPulseAtThirdOrFourthEdge : Obligations.TickPulseAtThirdOrFourthEdge := by
  intro is i s t hfresh h1 h2 h3 hreset hnone hhead hrun
  obtain ⟨hs3, hs2⟩ := tickLine_of_run hreset hnone hrun
  rw [firstTickDraw_eq hhead] at hs3 hs2
  have hnew := tickLine_of_fresh hfresh h1 h2 h3 i.tickDraw
  rw [Bool.eq_iff_iff, tickPulse, bne_iff_ne, hs2, hs3, ne_iff_of_eq_iff (hnew _) (hnew _), decide_eq_true_iff]
  split <;> omega

/-! ### Polls and pulses along a run (R213) -/

theorem pollAt_hclk {i : StepInput} (he : i.edge = .hclk) : pollAt i = isPoll (transactionOf i) := by
  rw [Bool.eq_iff_iff, isPoll_iff]
  simp [pollAt, he]

theorem tickByte_eq_one (t : TickPart) : (tickByte t == 0x01) = t.tickPend := by
  cases h : t.tickPend <;> simp [tickByte, h]

/-- A poll returns 1 exactly where it finds the flag 1 (R207). -/
theorem step_pollReturnsOne {i : StepInput} {s u : State} (h : step (s.withInput i) = .next u) :
    (pollAt i && u.rdata == 0x01) = (pollAt i && s.tick.tickPend) := by
  cases hpoll : pollAt i
  · rfl
  · obtain ⟨he, ho⟩ : i.edge = .hclk ∧ transactionOf i = some .rdTick := by simpa [pollAt] using hpoll
    have hrdata : u.rdata = tickByte s.tick := by
      rw [step_hclk he h, nextInput_rdata, withInput_input, ho]
      rfl
    rw [hrdata, tickByte_eq_one]

/-- With OCIEA = 1 and no commit, the flag is 1 while a pulse waits for its poll. -/
theorem step_tickPend {i : StepInput} {s u : State} (hmask : ociea s.config = true) (hi : LeavesWord i)
    (h : step (s.withInput i) = .next u) :
    u.tick.tickPend = (pulseAt i s || (s.tick.tickPend && !pollAt i)) := by
  obtain ⟨hreset, hno⟩ := hi
  cases he : i.edge with
  | hclk => simp [step_tick_hclk he h, tickEdge, tickSet, hmask, pulseAt, he, pollAt_hclk he, hno he]
  | tclk => simp [step_tick_tclk he h, pulseAt, pollAt, he]
  | reset => exact absurd he hreset

/-- Where no pulse finds an earlier one still unpolled, a step's poll and pulse balance the flag. -/
theorem polls_add_pend_eq (pend pulse poll : Bool) (h : (pend && pulse && !poll) = false) :
    (poll && pend).toNat + (pulse || (pend && !poll)).toNat = pend.toNat + pulse.toNat := by
  revert pend pulse poll
  decide

/-- A run is polled in time where its first step is, and the rest of it is. -/
theorem polledInTime_cons {w : Bool} {i : StepInput} {is : List StepInput} {s u : State}
    (h : step (s.withInput i) = .next u) :
    polledInTime w (i :: is) s = true ↔
      (w && pulseAt i s && !pollAt i) = false ∧ polledInTime (pulseAt i s || (w && !pollAt i)) is u = true := by
  simp only [polledInTime, h, Bool.and_eq_true, Bool.not_eq_true']

/-- The balance of R213 along a run. -/
theorem polls_add_pend_of_run {is : List StepInput} {s t : State} (hmask : ociea s.config = true)
    (his : ∀ i ∈ is, LeavesWord i) (htime : polledInTime s.tick.tickPend is s = true)
    (hrun : runInputs is s = .next t) :
    pollsReturningOne is s + t.tick.tickPend.toNat = s.tick.tickPend.toNat + pulseEdges is s := by
  induction is generalizing s with
  | nil =>
    obtain rfl : s = t := by simpa [runInputs] using hrun
    exact Nat.add_comm _ _
  | cons i is ih =>
    obtain ⟨hi, his⟩ := List.forall_mem_cons.1 his
    obtain ⟨u, hu, ht⟩ := runInputs_cons hrun
    obtain ⟨hhere, hrest⟩ := (polledInTime_cons hu).1 htime
    have hmask' : ociea u.config = true := by rw [ociea, step_tcfgImsk hi hu]; exact hmask
    have hpend := step_tickPend hmask hi hu
    have hih := ih hmask' his (hpend ▸ hrest) ht
    have hstep := polls_add_pend_eq _ _ _ hhere
    rw [← step_pollReturnsOne hu, ← hpend] at hstep
    simp only [pollsReturningOne, pulseEdges, countSteps_cons hu] at hih ⊢
    omega

/-- Settles O57: the flag is 1 exactly while a pulse waits for its poll. -/
theorem pollsReturnOneOncePerPulse : Obligations.PollsReturnOneOncePerPulse :=
  fun _ _ _ hmask hreset hno htime hrun =>
    polls_add_pend_of_run hmask (fun i hi => ⟨hreset i hi, fun he => isCommit_eq_false (hno i hi he)⟩) htime hrun

end Sys2Proof.Machine
end

section
/-! PROOFS. Family 43_row_scan.md: the scanner at every kind of step, the sample that a scan captures, the pressed keys
that it reads in the reference environment, and what neither the scanner nor the transmitter depends on. -/

namespace Sys2Proof.Machine

/-! ### The scanner at each kind of edge (43_row_scan.md R232 to R238) -/

section
variable {s t : State}

theorem step_scan_hclk (he : s.input.edge = .hclk) (h : step s = .next t) :
    t.scan = scanAt (transactionOf s.input) s := by
  rw [step_hclk he h, nextInput_scan]
  rfl

theorem step_scan_tclk (he : s.input.edge = .tclk) (h : step s = .next t) : t.scan = s.scan := by
  rw [step_tclk he h, nextInput_scan, tclkEdge_scan]

theorem scanEdge_idle (h : s.scan.scanBusy = false) : scanEdge s = sampleColumns s.input.colIn s.scan := by
  simp [scanEdge, h]

theorem scanEdge_settling (h : s.scan.scanBusy = true) (hc : s.scan.scanCnt ≠ 0#8) :
    scanEdge s = { sampleColumns s.input.colIn s.scan with scanCnt := s.scan.scanCnt - 1#8 } := by
  simp [scanEdge, h, hc]

theorem scanEdge_capture (h : s.scan.scanBusy = true) (hc : s.scan.scanCnt = 0#8) :
    scanEdge s = { sampleColumns s.input.colIn s.scan with
      colData := capturedColumns s.params s.scan.colS2
      scanBusy := false } := by
  simp [scanEdge, h, hc]

/-- The synchronizer runs in each of the scanner's cases (R238). -/
theorem scanEdge_synchronizer (s : State) :
    (scanEdge s).colS1 = s.input.colIn ∧ (scanEdge s).colS2 = s.scan.colS1 := by
  obtain ⟨-, h⟩ | ⟨-, -, h⟩ | ⟨-, h⟩ := scanEdge_cases s <;> rw [h] <;> exact ⟨rfl, rfl⟩

/-- A running scan ignores every transaction (R232). -/
theorem scanAt_of_busy (h : s.scan.scanBusy = true) (o : Option Instr) : scanAt o s = scanEdge s := by
  unfold scanAt
  split
  · exact scanCommand_busy h
  · rfl

theorem scanAt_of_not_command {o : Option Instr} (h : ∀ d, o ≠ some (.wrRowScan d)) (s : State) :
    scanAt o s = scanEdge s := by
  unfold scanAt
  split
  · next d => exact absurd rfl (h d)
  · rfl

theorem step_scan_settling (he : s.input.edge = .hclk) (hb : s.scan.scanBusy = true) (hc : s.scan.scanCnt ≠ 0#8)
    (h : step s = .next t) :
    t.scan = { sampleColumns s.input.colIn s.scan with scanCnt := s.scan.scanCnt - 1#8 } := by
  rw [step_scan_hclk he h, scanAt_of_busy hb, scanEdge_settling hb hc]

theorem step_scan_capture (he : s.input.edge = .hclk) (hb : s.scan.scanBusy = true) (hc : s.scan.scanCnt = 0#8)
    (h : step s = .next t) :
    t.scan = { sampleColumns s.input.colIn s.scan with
      colData := capturedColumns s.params s.scan.colS2
      scanBusy := false } := by
  rw [step_scan_hclk he h, scanAt_of_busy hb, scanEdge_capture hb hc]

theorem toNat_eq_pred_add_one {x : BitVec 8} (h : x ≠ 0#8) : x.toNat = (x - 1#8).toNat + 1 := by
  bv_omega

/-- The settling count of a scan that has just been accepted (R232). -/
theorem scanCnt_toNat_of_accepted (hp : s.params.Legal) (h : s.scan.scanCnt = BitVec.ofNat 8 s.params.settleCycles) :
    s.scan.scanCnt.toNat = s.params.settleCycles := by
  obtain ⟨-, -, -, -, -, ⟨-, hle⟩, -⟩ := hp
  rw [h, BitVec.toNat_ofNat]
  omega

end

/-- A captured bit is 1 for a real column that reads pressed under the column polarity (R236). -/
theorem capturedColumns_getLsbD_of_lt {p : Params} {c : Byte} {k : Nat} (hk : k < 8) :
    (capturedColumns p c).getLsbD k = (decide (k < p.numCols) && (c.getLsbD k != p.colActiveLow)) := by
  have hmask : (columnMask p).getLsbD k = decide (k < p.numCols) := by
    rw [columnMask, BitVec.getLsbD_ofNat, Nat.testBit_two_pow_sub_one, decide_eq_true hk, Bool.true_and]
  rw [capturedColumns, BitVec.getLsbD_and, hmask, Bool.and_comm]
  cases p.colActiveLow
  · rw [Bool.bne_false]
    rfl
  · rw [if_pos rfl, BitVec.getLsbD_not, decide_eq_true hk, Bool.true_and, Bool.bne_true]

/-! ### The scan command and the plain reads (R231 to R234, R239) -/

theorem exec_wrRowScan (d : Byte) (s : State) :
    exec (.wrRowScan d) s = .next { hclkEdge s with scan := scanCommand d.toNat s } := rfl

theorem scanCommand_in_range {r : Nat} {s : State} (hb : s.scan.scanBusy = false) (hr : r < s.params.numRows) :
    scanCommand r s =
      { sampleColumns s.input.colIn s.scan with
        rowSel := BitVec.ofNat 4 r
        rowValid := true
        rowOhN := rowOneHot s.params r
        scanCnt := BitVec.ofNat 8 s.params.settleCycles
        scanBusy := true } := by
  simp [scanCommand, hb, hr, scanEdge_idle]

theorem scanCommand_out_of_range {r : Nat} {s : State} (hb : s.scan.scanBusy = false) (hr : s.params.numRows ≤ r) :
    scanCommand r s = { sampleColumns s.input.colIn s.scan with colData := 0#8 } := by
  simp [scanCommand, hb, Nat.not_lt.2 hr, scanEdge_idle]

theorem ofNat_toNat_eq_lowNibble (d : Byte) : BitVec.ofNat 4 d.toNat = lowNibble d := by
  rw [BitVec.ofNat_toNat, BitVec.setWidth_eq_extractLsb' (by decide), lowNibble]

/-- Settles O20, by the three cases of the command. -/
theorem scanCommandStartsClearsOrIsIgnored : Obligations.ScanCommandStartsClearsOrIsIgnored := by
  intro d s
  refine ⟨fun hb => ?busy, fun hb hr => ?starts, fun hb hr => ?clears⟩
  case busy =>
    rw [exec_wrRowScan, scanCommand_busy hb]
    rfl
  case starts =>
    rw [exec_wrRowScan, scanCommand_in_range hb hr, ofNat_toNat_eq_lowNibble]
    rfl
  case clears =>
    rw [exec_wrRowScan, scanCommand_out_of_range hb hr]
    rfl

/-- Settles O14: each of the nine arms is a `readEdge` of its value. -/
theorem plainReadsComplete : Obligations.PlainReadsComplete :=
  fun _ => ⟨rfl, rfl, rfl, rfl, rfl, rfl, rfl, rfl, rfl⟩

/-! ### What every hclk edge does to the scanner (R235, R236, R238, R245) -/

/-- Settles O31: a command puts its effect on top of the synchronizer's. -/
theorem columnSynchronizerAlwaysRuns : Obligations.ColumnSynchronizerAlwaysRuns := by
  intro s t he hstep
  rw [step_scan_hclk he hstep]
  obtain h | ⟨r, -, h⟩ | h := scanAt_cases (transactionOf s.input) s <;> rw [h] <;> exact scanEdge_synchronizer s

/-- Settles O32: a running scan settles or captures, and keeps its row. -/
theorem settlingCountAndCapture : Obligations.SettlingCountAndCapture := by
  intro s t he hstep hb
  obtain ⟨hsel, hvalid, hoh⟩ := scanEdge_row s
  rw [step_scan_hclk he hstep, scanAt_of_busy hb]
  refine ⟨hsel, hvalid, hoh, fun hc => ?settling, fun hc => ?capture⟩
  case settling =>
    rw [scanEdge_settling hb hc, toNat_eq_pred_add_one hc]
    exact ⟨rfl, hb, rfl⟩
  case capture =>
    rw [scanEdge_capture hb hc]
    exact ⟨rfl, hc, fun k hk => capturedColumns_getLsbD_of_lt hk⟩

/-- Settles O33: without a command an idle scanner only samples. -/
theorem idleScannerHoldsItsRow : Obligations.IdleScannerHoldsItsRow := by
  intro s t he hstep hidle hno
  rw [step_scan_hclk he hstep, scanAt_of_not_command hno, scanEdge_idle hidle]
  rfl

/-! ### The captured sample (R241, R242)

The pins pass through the two flops: a scan with `n` settling edges to go captures the `n`-th value of the line. -/

/-- What `col_s2` holds after 0, 1, 2 … hclk edges with these inputs. -/
def columnLine (is : List StepInput) (s : State) : List Byte :=
  s.scan.colS2 :: s.scan.colS1 :: (hclkInputs is).map (·.colIn)

theorem hclkInputs_cons_hclk {i : StepInput} (he : i.edge = .hclk) (is : List StepInput) :
    hclkInputs (i :: is) = i :: hclkInputs is := by
  simp [hclkInputs, he]

theorem hclkInputs_cons_of_ne {i : StepInput} (he : i.edge ≠ .hclk) (is : List StepInput) :
    hclkInputs (i :: is) = hclkInputs is := by
  simp [hclkInputs, he]

/-- Without an hclk edge and a reset the scanner stands still. -/
theorem scan_of_run_without_hclk {is : List StepInput} {s t : State} (hreset : NoReset is)
    (hnone : (hclkInputs is).length = 0) (hrun : runInputs is s = .next t) : t.scan = s.scan := by
  induction is generalizing s with
  | nil =>
    obtain rfl : s = t := by simpa [runInputs] using hrun
    rfl
  | cons i is ih =>
    obtain ⟨hi, his⟩ := List.forall_mem_cons.1 hreset
    obtain ⟨u, hu, ht⟩ := runInputs_cons hrun
    cases he : i.edge with
    | hclk => simp [hclkInputs_cons_hclk he] at hnone
    | tclk =>
      rw [hclkInputs_cons_of_ne (by simp [he])] at hnone
      rw [ih his hnone ht, step_scan_tclk he hu, withInput_scan]
    | reset => exact absurd he hi

/-- An hclk edge moves one place along the line. -/
theorem columnLine_cons_hclk {i : StepInput} {is : List StepInput} {s u : State} (he : i.edge = .hclk)
    (h1 : u.scan.colS1 = i.colIn) (h2 : u.scan.colS2 = s.scan.colS1) :
    columnLine (i :: is) s = s.scan.colS2 :: columnLine is u := by
  rw [columnLine, columnLine, hclkInputs_cons_hclk he, h1, h2, List.map_cons]

/-- A running scan along a run: busy with its result kept while the count lasts, and then the line's value captured. -/
theorem scan_of_run {is : List StepInput} {s t : State} (hb : s.scan.scanBusy = true) (hreset : NoReset is)
    (hrun : runInputs is s = .next t) :
    ((hclkInputs is).length ≤ s.scan.scanCnt.toNat → t.scan.scanBusy = true ∧ t.scan.colData = s.scan.colData) ∧
    ((hclkInputs is).length = s.scan.scanCnt.toNat + 1 → t.scan.scanBusy = false ∧
      ∀ b, (columnLine is s)[s.scan.scanCnt.toNat]? = some b → t.scan.colData = capturedColumns s.params b) := by
  induction is generalizing s with
  | nil =>
    obtain rfl : s = t := by simpa [runInputs] using hrun
    exact ⟨fun _ => ⟨hb, rfl⟩, fun hlen => by simp [hclkInputs] at hlen⟩
  | cons i is ih =>
    obtain ⟨hi, his⟩ := List.forall_mem_cons.1 hreset
    obtain ⟨u, hu, ht⟩ := runInputs_cons hrun
    have hp : u.params = s.params := (step_params hu).trans (withInput_params s i)
    cases he : i.edge with
    | hclk =>
      by_cases hc : s.scan.scanCnt = 0#8
      · have hscan := step_scan_capture (s := s.withInput i) he hb hc hu
        rw [hclkInputs_cons_hclk he, List.length_cons, hc]
        refine ⟨fun hlen => absurd hlen (Nat.not_succ_le_zero _), fun hlen => ?_⟩
        rw [scan_of_run_without_hclk his (Nat.succ.inj hlen) ht, hscan]
        exact ⟨rfl, fun b hline => by rw [← Option.some.inj hline]; rfl⟩
      · have hscan := step_scan_settling (s := s.withInput i) he hb hc hu
        have hline := columnLine_cons_hclk (is := is) (s := s) (u := u) he (by rw [hscan]; rfl) (by rw [hscan]; rfl)
        have hcnt : s.scan.scanCnt.toNat = u.scan.scanCnt.toNat + 1 := by
          rw [hscan]
          exact toNat_eq_pred_add_one hc
        have hdata : u.scan.colData = s.scan.colData := by rw [hscan]; rfl
        rw [hclkInputs_cons_hclk he, List.length_cons, hline, hcnt, List.getElem?_cons_succ, ← hdata, ← hp,
          Nat.add_le_add_iff_right, Nat.add_right_cancel_iff]
        exact ih (by rw [hscan]; exact hb) his ht
    | tclk =>
      have hscan : u.scan = s.scan := step_scan_tclk (s := s.withInput i) he hu
      rw [columnLine, hclkInputs_cons_of_ne (by simp [he]), ← hscan, ← columnLine, ← hp]
      exact ih (by rw [hscan]; exact hb) his ht
    | reset => exact absurd he hi

/-- Settles O52: an accepted scan's count is SETTLE_CYCLES, and the line's value there was sampled two edges before. -/
theorem scanCapturesTheSettledSample : Obligations.ScanCapturesTheSettledSample := by
  intro is s t hp hb hcnt hreset hrun
  obtain ⟨hbusy, hend⟩ := scan_of_run hb hreset hrun
  rw [scanCnt_toNat_of_accepted hp hcnt] at hbusy hend
  refine ⟨hbusy, fun hlen => ?_⟩
  obtain ⟨hidle, hdata⟩ := hend hlen
  refine ⟨hidle, fun i hi => hdata _ ?_⟩
  obtain ⟨-, -, hsettle, -⟩ := hp.constraints
  obtain ⟨n, hn⟩ := Nat.exists_eq_add_of_le' hsettle
  rw [hn, Nat.add_sub_cancel] at hi
  simp [columnLine, hn, hi]

/-! ### What the scanner and the transmitter depend on (R244, R246, R269, R289) -/

theorem step_scan_reset {s t : State} (he : s.input.edge = .reset) (h : step s = .next t) :
    t.scan = .reset s.params := by
  rw [step_reset he h, nextInput_scan, resetStep_scan]

section
variable {s s' : State} (hp : s.params = s'.params) (hin : s.input = s'.input)
include hp hin

theorem scanEdge_congr (h : s.scan = s'.scan) : scanEdge s = scanEdge s' := by
  simp only [scanEdge, h, hp, hin]

theorem scanAt_congr (h : s.scan = s'.scan) (o : Option Instr) : scanAt o s = scanAt o s' := by
  unfold scanAt scanCommand
  rw [scanEdge_congr hp hin h, h, hp]

theorem step_scan_congr {t t' : State} (hs : step s = .next t) (hs' : step s' = .next t') (h : s.scan = s'.scan) :
    t.scan = t'.scan := by
  cases he : s.input.edge with
  | hclk => rw [step_scan_hclk he hs, step_scan_hclk (hin ▸ he) hs', ← hin, scanAt_congr hp hin h]
  | tclk => rw [step_scan_tclk he hs, step_scan_tclk (hin ▸ he) hs', h]
  | reset => rw [step_scan_reset he hs, step_scan_reset (hin ▸ he) hs', hp]

end

section
variable {s s' t t' : State}

theorem step_tx_hclk (he : s.input.edge = .hclk) (h : step s = .next t) :
    t.tx = txAt (transactionOf s.input) s := by
  rw [step_hclk he h, nextInput_tx]
  rfl

theorem step_tx_tclk (he : s.input.edge = .tclk) (h : step s = .next t) : t.tx = s.tx := by
  rw [step_tclk he h, nextInput_tx, tclkEdge_tx]

theorem step_tx_reset (he : s.input.edge = .reset) (h : step s = .next t) : t.tx = .reset := by
  rw [step_reset he h, nextInput_tx, resetStep_tx]

theorem txAt_congr (hp : s.params = s'.params) (h : s.tx = s'.tx) (o : Option Instr) : txAt o s = txAt o s' := by
  unfold txAt txCommand txEdge
  rw [h, hp]

theorem step_tx_congr (hp : s.params = s'.params) (hin : s.input = s'.input) (hs : step s = .next t)
    (hs' : step s' = .next t') (h : s.tx = s'.tx) : t.tx = t'.tx := by
  cases he : s.input.edge with
  | hclk => rw [step_tx_hclk he hs, step_tx_hclk (hin ▸ he) hs', ← hin, txAt_congr hp h]
  | tclk => rw [step_tx_tclk he hs, step_tx_tclk (hin ▸ he) hs', h]
  | reset => rw [step_tx_reset he hs, step_tx_reset (hin ▸ he) hs']

end

/-- Settles O59. -/
theorem scannerAndTransmitterAreIndependent : Obligations.ScannerAndTransmitterAreIndependent :=
  fun _ _ _ _ hp hin hs hs' => ⟨step_scan_congr hp hin hs hs', step_tx_congr hp hin hs hs'⟩

/-- The block with other output enables (R47). -/
def State.withPincfg (v : BitVec 4) (s : State) : State := { s with gpio := { s.gpio with pincfg := v } }

/-- The flops of the LED and of the pulse generators do not read the enables, and only a write of PINCFG writes them. -/
theorem gpioAt_withPincfg (o : Option Instr) (v : BitVec 4) (s : State) :
    { gpioAt o (s.withPincfg v) with pincfg := (gpioAt o s).pincfg } = gpioAt o s := by
  unfold gpioAt
  split <;> rfl

theorem hclkWith_withPincfg (o : Option Instr) (v : BitVec 4) (s : State) :
    hclkWith o (s.withPincfg v) =
      { hclkWith o s with gpio := gpioAt o (s.withPincfg v), rdata := rdataAt o (s.withPincfg v) } := by
  have hscan : scanAt o (s.withPincfg v) = scanAt o s := scanAt_congr rfl rfl rfl o
  have htx : txAt o (s.withPincfg v) = txAt o s := txAt_congr rfl rfl o
  simp only [hclkWith, hscan, htx]
  rfl

theorem tclkEdge_withPincfg (v : BitVec 4) (s : State) : tclkEdge (s.withPincfg v) = (tclkEdge s).withPincfg v := rfl

theorem resetStep_withPincfg (v : BitVec 4) (s : State) : resetStep (s.withPincfg v) = resetStep s := rfl

/-- Every element of the block but the enables is the same. -/
def AgreesButEnables (u t : State) : Prop :=
  u.clock = t.clock ∧ u.config = t.config ∧ u.tick = t.tick ∧ u.scan = t.scan ∧ u.tx = t.tx ∧
  u.timer = t.timer ∧ u.chg = t.chg ∧ { u.gpio with pincfg := t.gpio.pincfg } = t.gpio

theorem AgreesButEnables.nextInput {u t : State} (h : AgreesButEnables u t) :
    AgreesButEnables (nextInput u) (nextInput t) := by
  simpa only [AgreesButEnables, nextInput_clock, nextInput_config, nextInput_tick, nextInput_scan, nextInput_tx,
    nextInput_timer, nextInput_chg, nextInput_gpio] using h

theorem agreesButEnables_withPincfg (v : BitVec 4) (s : State) : AgreesButEnables (s.withPincfg v) s :=
  ⟨rfl, rfl, rfl, rfl, rfl, rfl, rfl, rfl⟩

theorem agreesButEnables_hclkWith (o : Option Instr) (v : BitVec 4) (s : State) :
    AgreesButEnables (hclkWith o (s.withPincfg v)) (hclkWith o s) := by
  rw [hclkWith_withPincfg]
  exact ⟨rfl, rfl, rfl, rfl, rfl, rfl, rfl, gpioAt_withPincfg o v s⟩

/-- Settles O58, by the kind of edge. -/
theorem outputEnablesChangeOnlyPins : Obligations.OutputEnablesChangeOnlyPins := by
  intro s t u v hs hu
  cases he : s.input.edge with
  | hclk =>
    rw [step_hclk he hs, step_hclk (s := s.withPincfg v) he hu]
    exact (agreesButEnables_hclkWith _ v s).nextInput
  | tclk =>
    rw [step_tclk he hs, step_tclk (s := s.withPincfg v) he hu, tclkEdge_withPincfg]
    exact (agreesButEnables_withPincfg v _).nextInput
  | reset =>
    rw [step_reset he hs, step_reset (s := s.withPincfg v) he hu, resetStep_withPincfg]
    exact ⟨rfl, rfl, rfl, rfl, rfl, rfl, rfl, rfl⟩

/-! ### Cross-row isolation in the reference environment (R243, R248) -/

/-- A write on the bus is a write of the address and the byte in its word. -/
theorem transactionOf_of_busOf_write {i : StepInput} {a : RegAddr} {v : Byte} (h : i.bus = busOf (wordOf true a v)) :
    ∃ j, transactionOf i = some j ∧ j.addr = a := by
  obtain ⟨hw, ha, -⟩ := Laws.WordFields.wordOf_fields true a v
  obtain ⟨j, hj, -, haddr, -⟩ := transactionOf_of_write (b := i) (by rw [h]; exact hw)
  exact ⟨j, hj, haddr.trans (by rw [h]; exact ha)⟩

theorem transactionOf_of_busOf_read {i : StepInput} {a : RegAddr} {v : Byte} (h : i.bus = busOf (wordOf false a v)) :
    ∃ j, transactionOf i = some j ∧ j.isWrite = false := by
  obtain ⟨hw, -⟩ := Laws.WordFields.wordOf_fields false a v
  obtain ⟨j, hj, hread, -⟩ := transactionOf_of_read (b := i) (by rw [h]; exact hw) (by rw [h]; exact congrArg (!·) hw)
  exact ⟨j, hj, hread⟩

/-- The host has no write of PINCFG to do. -/
def KeepsEnables (h : HostAgent) : Prop := ∀ v, HostOp.write RegRef.pincfg.addr v ∉ h.todo

/-- The host presents no transaction, a read, or a write that it has to do. -/
theorem hostBus_cases (h : HostAgent) :
    h.bus = .idle ∨ (∃ a, h.bus = busOf (wordOf false a 0)) ∨
    ∃ a v, h.bus = busOf (wordOf true a v) ∧ HostOp.write a v ∈ h.todo := by
  unfold HostAgent.bus
  split
  · exact .inl rfl
  · exact .inl rfl
  · exact .inr (.inl ⟨_, rfl⟩)
  · exact .inr (.inl ⟨_, rfl⟩)
  · next htodo => exact .inr (.inr ⟨_, _, rfl, by rw [htodo]; exact List.mem_cons_self⟩)

theorem transactionOf_ne_wrPincfg {h : HostAgent} {i : StepInput} (hkeep : KeepsEnables h) (hbus : i.bus = h.bus)
    (d : Byte) : transactionOf i ≠ some (.wrPincfg d) := by
  intro htr
  obtain hi | ⟨a, hi⟩ | ⟨a, v, hi, hmem⟩ := hostBus_cases h <;> rw [hi] at hbus
  · rw [transactionOf_of_idle (by rw [hbus]; rfl) (by rw [hbus]; rfl)] at htr
    exact nomatch htr
  · obtain ⟨j, hj, hread⟩ := transactionOf_of_busOf_read hbus
    rw [Option.some.inj (hj.symm.trans htr)] at hread
    exact nomatch hread
  · obtain ⟨j, hj, rfl⟩ := transactionOf_of_busOf_write hbus
    obtain rfl := Option.some.inj (hj.symm.trans htr)
    exact hkeep v hmem

/-- The host drops operations from its program and adds none. -/
theorem after_todo_subset (h : HostAgent) (v : Byte) : (h.after v).todo ⊆ h.todo := by
  have htail {op : HostOp} {rest : List HostOp} (heq : h.todo = op :: rest) : rest ⊆ h.todo := by
    rw [heq]
    exact List.subset_cons_self op rest
  unfold HostAgent.after
  split
  · exact List.Subset.refl _
  · next heq => exact htail heq
  · next heq => exact htail heq
  · next heq => exact htail heq
  · next heq =>
    dsimp only
    split
    · exact htail heq
    · exact List.Subset.refl _

theorem KeepsEnables.after {h : HostAgent} (hkeep : KeepsEnables h) (v : Byte) : KeepsEnables (h.after v) :=
  fun w hmem => hkeep w (after_todo_subset h v hmem)

theorem gpioAt_pincfg {o : Option Instr} (h : ∀ d, o ≠ some (.wrPincfg d)) (s : State) :
    (gpioAt o s).pincfg = s.gpio.pincfg := by
  unfold gpioAt
  split
  · rfl
  · rfl
  · next d => exact absurd rfl (h d)
  · rfl

/-! #### What the environment's sample shows -/

theorem drivenRow_congr {s t : State} (hpins : t.gpio.pincfg = s.gpio.pincfg)
    (hvalid : t.scan.rowValid = s.scan.rowValid) (hsel : t.scan.rowSel = s.scan.rowSel) :
    drivenRow t = drivenRow s := by
  rw [drivenRow, drivenRow, rowOe, rowOe, hpins, hvalid, hsel]

/-- Only a change of the driven row moves pins at a step. -/
theorem seesRow_of_same_row (e : RefEnv) {s t : State} (hpins : t.gpio.pincfg = s.gpio.pincfg)
    (hvalid : t.scan.rowValid = s.scan.rowValid) (hsel : t.scan.rowSel = s.scan.rowSel) : e.seesRow s t = e := by
  rw [RefEnv.seesRow, if_pos ⟨hvalid.symm, hsel.symm, by rw [rowOe, rowOe, hpins]⟩]

theorem foldl_setBits_getLsbD (f : Nat → Bool) {k : Nat} (hk : k < 8) (l : List Nat) (b : Byte) :
    (l.foldl (fun acc c => if f c then acc ||| (1#8 <<< c) else acc) b).getLsbD k =
      (b.getLsbD k || (decide (k ∈ l) && f k)) := by
  induction l generalizing b with
  | nil => simp
  | cons c l ih =>
    have hone : (1#8 <<< c).getLsbD k = decide (k = c) := by
      rw [← BitVec.twoPow_eq, BitVec.getLsbD_twoPow]
      grind
    rw [List.foldl_cons, ih]
    by_cases hc : k = c
    · subst hc
      cases hf : f k <;> simp [hone, -BitVec.getLsbD_eq_getElem]
    · cases hf : f c <;> simp [hone, hc, -BitVec.getLsbD_eq_getElem]

theorem sample_getLsbD (e : RefEnv) (s : State) (draws : Byte) {c : Nat} (hc : c < 8) :
    (e.sample s draws).getLsbD c = e.sampleColumn s (draws.getLsbD c) c := by
  rw [RefEnv.sample]
  refine (foldl_setBits_getLsbD (fun c => e.sampleColumn s (draws.getLsbD c) c) hc _ _).trans ?_
  simp [hc]

section
variable {e : RefEnv} {s : State} {r : Nat}

/-- A driven row settles every column: a pressed key pulls it, and the pull-up or the external
pull-down holds the rest. -/
theorem settled_of_drivenRow (hrow : drivenRow s = some r)
    (hpull : s.params.colActiveLow = true → colPu s.gpio = true) (c : Nat) :
    e.settled s c = some (e.isPressed r c != s.params.colActiveLow) := by
  have hdown : e.keyDown s c = e.isPressed r c := by rw [RefEnv.keyDown, hrow]
  rw [RefEnv.settled, hdown]
  cases hlow : s.params.colActiveLow
  · simp
  · cases hkey : e.isPressed r c <;> simp [hpull hlow]

theorem sampleColumn_of_still (hrow : drivenRow s = some r)
    (hpull : s.params.colActiveLow = true → colPu s.gpio = true) (hstill : ∀ m ∈ e.moves, m.left = 0) {c : Nat}
    (hc : c < s.params.numCols) (d : Bool) :
    e.sampleColumn s d c = (e.isPressed r c != s.params.colActiveLow) := by
  have hshake : e.moves.any (fun m => m.shakes c) = false := by
    rw [List.any_eq_false]
    intro m hm
    simp [PinMove.shakes, hstill m hm]
  rw [RefEnv.sampleColumn, if_neg (Nat.not_le.2 hc), hshake, settled_of_drivenRow hrow hpull]
  rfl

end

/-- The columns of a byte read as the row's keys under the column polarity. -/
def ShowsKeys (p : Params) (keys : Byte) (b : Byte) : Prop :=
  ∀ c < 8, c < p.numCols → b.getLsbD c = (keys.getLsbD c != p.colActiveLow)

theorem capturedColumns_of_showsKeys {p : Params} {keys b : Byte} (h : ShowsKeys p keys b) {c : Nat} (hc : c < 8) :
    (capturedColumns p b).getLsbD c = (decide (c < p.numCols) && keys.getLsbD c) := by
  rw [capturedColumns_getLsbD_of_lt hc]
  by_cases hcol : c < p.numCols
  · rw [h c hc hcol, Bool.bne_assoc, bne_self_eq_false, Bool.bne_false]
  · simp [hcol]

theorem tickMoves_left {e : RefEnv} {n : Nat} (h : ∀ m ∈ e.moves, m.left ≤ n) :
    ∀ m ∈ e.tickMoves.moves, m.left ≤ n - 1 := by
  intro m hm
  obtain ⟨m', hm', rfl⟩ := List.mem_map.1 (List.mem_filter.1 hm).1
  exact Nat.sub_le_sub_right (h m' hm') 1

/-! #### A scan along a run of the system -/

theorem systemRun_cons {y z : System} {m : Move} {ms : List Move} (h : y.run (m :: ms) = .next z) :
    ∃ w, y.step m = .next w ∧ w.run ms = .next z := by
  simp only [System.run] at h
  split at h
  · exact ⟨_, ‹_›, h⟩
  · simp at h
  · simp at h

theorem systemStep_hclk {y z : System} {c : Byte} {q a : Bool} (h : y.step (.hclk c q a) = .next z) :
    ∃ t, step (y.block.withInput (y.hclkInput c q a)) = .next t ∧
      z = y.afterHclk (y.block.withInput (y.hclkInput c q a)) t := by
  simp only [System.step] at h
  split at h
  · exact ⟨_, ‹_›, (Host.Outcome.next.inj h).symm⟩
  · simp at h
  · simp at h

theorem step_pincfg_of_host {y : System} {t : State} {c : Byte} {q a : Bool} (hkeep : KeepsEnables y.host)
    (h : step (y.block.withInput (y.hclkInput c q a)) = .next t) : t.gpio.pincfg = y.block.gpio.pincfg := by
  rw [step_hclk rfl h, nextInput_gpio]
  exact gpioAt_pincfg (transactionOf_ne_wrPincfg hkeep rfl) _

theorem systemStep_tclk {y z : System} {q : Bool} (h : y.step (.tclk q) = .next z) :
    ∃ t, step (y.block.withInput { StepInput.quiet with edge := .tclk, reqDraw := q }) = .next t ∧
      z = { y with block := t } := by
  simp only [System.step] at h
  split at h
  · exact ⟨_, ‹_›, (Host.Outcome.next.inj h).symm⟩
  · simp at h
  · simp at h

theorem systemStep_tclk_scan {y z : System} {q : Bool} (h : y.step (.tclk q) = .next z) :
    z.block.scan = y.block.scan := by
  obtain ⟨t, ht, rfl⟩ := systemStep_tclk h
  exact step_scan_tclk (s := y.block.withInput { StepInput.quiet with edge := .tclk, reqDraw := q }) rfl ht

def Move.isHclk : Move → Bool
  | .hclk _ _ _ => true
  | _ => false

/-- The move is an edge of one of the two clocks: no reset and no key changing. -/
abbrev IsEdge (m : Move) : Prop := m ≠ .reset ∧ ∀ r c b, m ≠ .key r c b

theorem scan_of_systemRun_without_hclk {ms : List Move} {y z : System} (hms : ∀ m ∈ ms, IsEdge m)
    (hnone : (ms.filter Move.isHclk).length = 0) (hrun : y.run ms = .next z) : z.block.scan = y.block.scan := by
  induction ms generalizing y with
  | nil =>
    obtain rfl : y = z := by simpa [System.run] using hrun
    rfl
  | cons m ms ih =>
    obtain ⟨⟨hreset, hkey⟩, htail⟩ := List.forall_mem_cons.1 hms
    obtain ⟨w, hw, hrest⟩ := systemRun_cons hrun
    cases m with
    | hclk c q a => exact absurd hnone (Nat.succ_ne_zero _)
    | tclk q => exact (ih htail hnone hrest).trans (systemStep_tclk_scan hw)
    | reset => exact absurd rfl hreset
    | key row col down => exact absurd rfl (hkey row col down)

/-- A scan of the driven row `r`, whose keys are `keys`, is settling and its host leaves the enables alone; the pins stop
moving two edges before the count ends, and from then on the settled sample passes through the two flops. -/
structure ScanSettling (p : Params) (r : Nat) (keys : Byte) (y : System) : Prop where
  params : y.block.params = p
  row : drivenRow y.block = some r
  pull : p.colActiveLow = true → colPu y.block.gpio = true
  pressed : y.env.pressed.getD r 0 = keys
  host : KeepsEnables y.host
  busy : y.block.scan.scanBusy = true
  moves : ∀ m ∈ y.env.moves, m.left ≤ y.block.scan.scanCnt.toNat - 2
  first : y.block.scan.scanCnt.toNat ≤ 1 → ShowsKeys p keys y.block.scan.colS1
  second : y.block.scan.scanCnt.toNat = 0 → ShowsKeys p keys y.block.scan.colS2

section
variable {p : Params} {r : Nat} {keys : Byte} {y z : System} {c : Byte} {q a : Bool}

theorem ScanSettling.sample_showsKeys (h : ScanSettling p r keys y) (hcnt : y.block.scan.scanCnt.toNat ≤ 2)
    (c : Byte) :
    ShowsKeys p keys (y.env.sample y.block c) := by
  obtain rfl := h.params
  intro k hk hcol
  have hstill : ∀ m ∈ y.env.moves, m.left = 0 := fun m hm => by
    have := h.moves m hm
    omega
  rw [sample_getLsbD _ _ _ hk, sampleColumn_of_still h.row h.pull hstill hcol, RefEnv.isPressed, h.pressed]

/-- An hclk edge that is not the last of a scan. -/
theorem ScanSettling.settle (h : ScanSettling p r keys y) (hc : y.block.scan.scanCnt ≠ 0#8)
    (hz : y.step (.hclk c q a) = .next z) :
    ScanSettling p r keys z ∧ y.block.scan.scanCnt.toNat = z.block.scan.scanCnt.toNat + 1 := by
  obtain ⟨t, ht, rfl⟩ := systemStep_hclk hz
  have hscan := step_scan_settling (s := y.block.withInput (y.hclkInput c q a)) rfl h.busy hc ht
  have hcnt : y.block.scan.scanCnt.toNat = t.scan.scanCnt.toNat + 1 := by
    rw [hscan]
    exact toNat_eq_pred_add_one hc
  have hpins : t.gpio.pincfg = y.block.gpio.pincfg := step_pincfg_of_host h.host ht
  have hrow : drivenRow t = some r := by
    rw [drivenRow_congr hpins (by rw [hscan]; rfl) (by rw [hscan]; rfl), h.row]
  have henv : y.env.tickMoves.seesRow (y.block.withInput (y.hclkInput c q a)) t = y.env.tickMoves :=
    seesRow_of_same_row _ hpins (by rw [hscan]; rfl) (by rw [hscan]; rfl)
  refine ⟨{ params := ?params, row := hrow, pull := ?pull, pressed := ?pressed, host := h.host.after _,
            busy := ?busy, moves := ?moves, first := ?first, second := ?second }, hcnt⟩
  case params => exact (step_params ht).trans h.params
  case pull =>
    intro hlow
    rw [System.afterHclk, colPu, hpins]
    exact h.pull hlow
  case pressed =>
    rw [System.afterHclk, henv]
    exact h.pressed
  case busy =>
    rw [System.afterHclk, hscan]
    exact h.busy
  case moves =>
    simp only [System.afterHclk, henv]
    intro m hm
    have := tickMoves_left h.moves m hm
    omega
  case first =>
    intro hle
    simp only [System.afterHclk] at hle ⊢
    rw [hscan]
    exact h.sample_showsKeys (by omega) c
  case second =>
    intro hzero
    simp only [System.afterHclk] at hzero ⊢
    rw [hscan]
    exact h.first (by omega)

/-- The last hclk edge of a scan captures the row's keys. -/
theorem ScanSettling.capture (h : ScanSettling p r keys y) (hc : y.block.scan.scanCnt = 0#8)
    (hz : y.step (.hclk c q a) = .next z) :
    z.block.scan.scanBusy = false ∧
      ∀ k < 8, z.block.scan.colData.getLsbD k = (decide (k < p.numCols) && keys.getLsbD k) := by
  obtain ⟨t, ht, rfl⟩ := systemStep_hclk hz
  obtain rfl := h.params
  rw [System.afterHclk, step_scan_capture (s := y.block.withInput (y.hclkInput c q a)) rfl h.busy hc ht]
  exact ⟨rfl, fun k hk => capturedColumns_of_showsKeys (h.second (by rw [hc]; rfl)) hk⟩

/-- A tclk edge reaches nothing of a scan. -/
theorem ScanSettling.tclk (h : ScanSettling p r keys y) (hz : y.step (.tclk q) = .next z) :
    ScanSettling p r keys z ∧ z.block.scan = y.block.scan := by
  have hscan : z.block.scan = y.block.scan := systemStep_tclk_scan hz
  obtain ⟨t, ht, rfl⟩ := systemStep_tclk hz
  have hgpio : t.gpio = y.block.gpio := by rw [step_tclk rfl ht, nextInput_gpio, tclkEdge_gpio, withInput_gpio]
  refine ⟨{ params := (step_params ht).trans h.params, row := ?row, pull := ?pull, pressed := h.pressed,
            host := h.host, busy := ?busy, moves := ?moves, first := ?first, second := ?second }, hscan⟩
  case row => exact (drivenRow_congr (by rw [hgpio]) (by rw [hscan]) (by rw [hscan])).trans h.row
  case pull =>
    rw [hgpio]
    exact h.pull
  all_goals rw [hscan]
  case busy => exact h.busy
  case moves => exact h.moves
  case first => exact h.first
  case second => exact h.second

/-- From a settling scan, a run with one hclk edge more than its count ends it with the row's keys captured. -/
theorem ScanSettling.run {ms : List Move} (h : ScanSettling p r keys y) (hms : ∀ m ∈ ms, IsEdge m)
    (hcount : (ms.filter Move.isHclk).length = y.block.scan.scanCnt.toNat + 1) (hrun : y.run ms = .next z) :
    z.block.scan.scanBusy = false ∧
      ∀ k < 8, z.block.scan.colData.getLsbD k = (decide (k < p.numCols) && keys.getLsbD k) := by
  induction ms generalizing y with
  | nil => simp at hcount
  | cons m ms ih =>
    obtain ⟨⟨hreset, hkey⟩, htail⟩ := List.forall_mem_cons.1 hms
    obtain ⟨w, hw, hrest⟩ := systemRun_cons hrun
    cases m with
    | hclk c q a =>
      rw [List.filter_cons_of_pos rfl, List.length_cons, Nat.add_right_cancel_iff] at hcount
      by_cases hc : y.block.scan.scanCnt = 0#8
      · rw [hc, BitVec.toNat_zero] at hcount
        rw [scan_of_systemRun_without_hclk htail hcount hrest]
        exact h.capture hc hw
      · obtain ⟨hw', hcnt⟩ := h.settle hc hw
        exact ih hw' htail (hcount.trans hcnt) hrest
    | tclk q =>
      obtain ⟨hw', hscan⟩ := h.tclk hw
      rw [List.filter_cons_of_neg Bool.false_ne_true, ← hscan] at hcount
      exact ih hw' htail hcount hrest
    | reset => exact absurd rfl hreset
    | key row col down => exact absurd rfl (hkey row col down)

end

/-- Settles O60: right after its command a scan is settling, because the moves of the row change that it made end before
the sample that it captures. -/
theorem scanReadsOnlyItsRow : Obligations.ScanReadsOnlyItsRow := by
  intro ms y z hp hb hvalid hcnt hoe hpull hk hsettle hmoves hhost hms hcount hrun
  have hcycles := scanCnt_toNat_of_accepted hp hcnt
  have hrow : drivenRow y.block = some y.block.scan.rowSel.toNat := by
    rw [drivenRow, hoe, hvalid]
    rfl
  have hscan : ScanSettling y.block.params y.block.scan.rowSel.toNat
      (y.env.pressed.getD y.block.scan.rowSel.toNat 0) y :=
    { params := rfl, row := hrow, pull := hpull, pressed := rfl, host := hhost, busy := hb
      moves := fun m hm => by
        have := hmoves m hm
        omega
      first := fun hle => by omega
      second := fun hzero => by omega }
  have hedges : (ms.filter Move.isHclk).length = y.block.scan.scanCnt.toNat + 1 := hcount.trans (by rw [hcycles])
  exact hscan.run hms hedges hrun

end Sys2Proof.Machine
end

section
/-! PROOFS. Family 44_strobe_tx.md: what a write of TX_DATA does, the transmitter state by state, and the course of a whole
transfer. -/

namespace Sys2Proof.Machine

/-! ### The transmitter in each state (44_strobe_tx.md R261, R263 to R265) -/

section
variable {s : State}

theorem txEdge_idle (h : s.tx.txState = .idle) : txEdge s = s.tx := by
  simp [txEdge, h]

theorem txEdge_setup (h : s.tx.txState = .setup) :
    txEdge s =
      { s.tx with strobe := true, txCnt := BitVec.ofNat 16 (s.params.strobeCycles - 1), txState := .active } := by
  simp [txEdge, h]

theorem txEdge_last (h : s.tx.txState = .active) (hc : s.tx.txCnt = 0#16) :
    txEdge s = { s.tx with strobe := false, txState := .hold } := by
  simp [txEdge, h, hc]

theorem txEdge_counting (h : s.tx.txState = .active) (hc : s.tx.txCnt ≠ 0#16) :
    txEdge s = { s.tx with txCnt := s.tx.txCnt - 1#16 } := by
  simp [txEdge, h, hc]

theorem txEdge_hold (h : s.tx.txState = .hold) : txEdge s = { s.tx with txState := .idle } := by
  simp [txEdge, h]

theorem exec_wrTxData (d : Byte) (s : State) :
    exec (.wrTxData d) s = .next { hclkEdge s with tx := txCommand d s } := rfl

/-- An idle transmitter takes the byte (R261). -/
theorem txCommand_idle {d : Byte} (h : s.tx.txState = .idle) :
    txCommand d s = { s.tx with txData := d, txState := .setup } := by
  simp [txCommand, txBusy, h]

/-- A running transfer ignores every transaction (R261). -/
theorem txAt_of_busy (h : s.tx.txState ≠ .idle) (o : Option Instr) : txAt o s = txEdge s := by
  unfold txAt
  split
  · exact txCommand_busy h
  · rfl

theorem txAt_of_not_command {o : Option Instr} (h : ∀ d, o ≠ some (.wrTxData d)) (s : State) :
    txAt o s = txEdge s := by
  unfold txAt
  split
  · next d => exact absurd rfl (h d)
  · rfl

theorem step_tx_busy {t : State} (he : s.input.edge = .hclk) (hbusy : s.tx.txState ≠ .idle) (h : step s = .next t) :
    t.tx = txEdge s := by
  rw [step_tx_hclk he h, txAt_of_busy hbusy]

end

/-- Settles O21: the command is accepted by an idle transmitter alone. -/
theorem txCommandAcceptedOnlyInIdle : Obligations.TxCommandAcceptedOnlyInIdle := by
  intro d s
  refine ⟨fun hidle => ?accepted, fun hbusy => ?dropped⟩
  case accepted => rw [exec_wrTxData, txCommand_idle hidle]
  case dropped =>
    rw [exec_wrTxData, txCommand_busy hbusy]
    rfl

/-- Settles O34: a busy transmitter moves on by itself, and an idle one only by its command. -/
theorem transmitterStateMachine : Obligations.TransmitterStateMachine := by
  intro s t he hstep
  refine ⟨fun hs => ?setup, fun hs hc => ?last, fun hs hc => ?counting, fun hs => ?hold, fun hs hno => ?idle⟩
  case setup => rw [step_tx_busy he (by simp [hs]) hstep, txEdge_setup hs]
  case last => rw [step_tx_busy he (by simp [hs]) hstep, txEdge_last hs hc]
  case counting => rw [step_tx_busy he (by simp [hs]) hstep, txEdge_counting hs hc]
  case hold => rw [step_tx_busy he (by simp [hs]) hstep, txEdge_hold hs]
  case idle => rw [step_tx_hclk he hstep, txAt_of_not_command hno, txEdge_idle hs]

/-! ### The course of a transfer (R266 to R268)

From SETUP on, the transmitter after `n` hclk edges is a closed form of `n`: every edge moves one place along it, and no
transaction and no tclk edge changes the place. -/

/-- The transmitter `n` hclk edges after it was `x` in SETUP, for a strobe of `w` edges. -/
def transferAt (w : Nat) (x : TxPart) (n : Nat) : TxPart :=
  if n = 0 then x
  else if n ≤ w then { x with strobe := true, txCnt := BitVec.ofNat 16 (w - n), txState := .active }
  else { x with strobe := false, txCnt := 0#16, txState := if n = w + 1 then .hold else .idle }

section
variable {w n : Nat} {x : TxPart}

theorem transferAt_zero : transferAt w x 0 = x := if_pos rfl

theorem transferAt_active (h1 : 1 ≤ n) (hn : n ≤ w) :
    transferAt w x n = { x with strobe := true, txCnt := BitVec.ofNat 16 (w - n), txState := .active } := by
  rw [transferAt, if_neg (by omega), if_pos hn]

theorem transferAt_hold : transferAt w x (w + 1) = { x with strobe := false, txCnt := 0#16, txState := .hold } := by
  rw [transferAt, if_neg (by omega), if_neg (by omega), if_pos rfl]

theorem transferAt_idle : transferAt w x (w + 2) = { x with strobe := false, txCnt := 0#16, txState := .idle } := by
  rw [transferAt, if_neg (by omega), if_neg (by omega), if_neg (by omega)]

/-- The places of a transfer: SETUP, an edge of the strobe, HOLD, IDLE. -/
theorem transfer_place_cases (h : n ≤ w + 2) : n = 0 ∨ (1 ≤ n ∧ n ≤ w) ∨ n = w + 1 ∨ n = w + 2 := by
  omega

theorem transferAt_txData (h : n ≤ w + 2) : (transferAt w x n).txData = x.txData := by
  obtain rfl | ⟨h1, hn⟩ | rfl | rfl := transfer_place_cases h
  · rw [transferAt_zero]
  · rw [transferAt_active h1 hn]
  · rw [transferAt_hold]
  · rw [transferAt_idle]

theorem transferAt_strobe (hx : x.strobe = false) (h : n ≤ w + 2) :
    (transferAt w x n).strobe = decide (1 ≤ n ∧ n ≤ w) := by
  obtain rfl | ⟨h1, hn⟩ | rfl | rfl := transfer_place_cases h
  · simp [transferAt_zero, hx]
  · simp [transferAt_active, h1, hn]
  · simp [transferAt_hold]
  · simp [transferAt_idle]

theorem transferAt_idle_iff (hx : x.txState = .setup) (h : n ≤ w + 2) :
    (transferAt w x n).txState = .idle ↔ n = w + 2 := by
  obtain rfl | ⟨h1, hn⟩ | rfl | rfl := transfer_place_cases h
  · simp [transferAt_zero, hx]
  · simp only [transferAt_active h1 hn, reduceCtorEq, false_iff]
    omega
  · simp [transferAt_hold]
  · simp [transferAt_idle]

/-- An edge moves a transfer to its next place: the count reaches 0 at the last edge of the strobe. -/
theorem txEdge_transferAt {s : State} (hx : x.txState = .setup) (hp : s.params.Legal)
    (hs : s.tx = transferAt s.params.strobeCycles x n) (h : n < s.params.strobeCycles + 2) :
    txEdge s = transferAt s.params.strobeCycles x (n + 1) := by
  obtain ⟨-, -, -, -, -, -, ⟨hpos, hle⟩, -⟩ := hp
  obtain rfl | ⟨h1, hn⟩ | rfl | rfl := transfer_place_cases h.le
  · rw [transferAt_zero] at hs
    rw [txEdge_setup (by rw [hs, hx]), hs, transferAt_active le_rfl hpos]
  · rw [transferAt_active h1 hn] at hs
    obtain rfl | hlt := hn.eq_or_lt
    · rw [txEdge_last (by rw [hs]) (by rw [hs, Nat.sub_self]), hs, transferAt_hold, Nat.sub_self]
    · have hpred : BitVec.ofNat 16 (s.params.strobeCycles - n) - 1#16 =
          BitVec.ofNat 16 (s.params.strobeCycles - (n + 1)) := by bv_omega
      have hne : BitVec.ofNat 16 (s.params.strobeCycles - n) ≠ 0#16 := by bv_omega
      rw [txEdge_counting (by rw [hs]) (by rw [hs]; exact hne), hs, hpred, transferAt_active (by omega) hlt]
  · rw [transferAt_hold] at hs
    rw [txEdge_hold (by rw [hs]), hs, transferAt_idle]
  · exact absurd h (lt_irrefl _)

/-- Along a run that is no longer than the transfer, the place is the number of hclk edges. -/
theorem tx_of_run {is : List StepInput} {s t : State} (hx : x.txState = .setup) (hp : s.params.Legal)
    (hs : s.tx = transferAt s.params.strobeCycles x n) (hreset : NoReset is)
    (hlen : n + (hclkInputs is).length ≤ s.params.strobeCycles + 2) (hrun : runInputs is s = .next t) :
    t.tx = transferAt s.params.strobeCycles x (n + (hclkInputs is).length) := by
  induction is generalizing s n with
  | nil =>
    obtain rfl : s = t := by simpa [runInputs] using hrun
    exact hs
  | cons i is ih =>
    obtain ⟨hi, his⟩ := List.forall_mem_cons.1 hreset
    obtain ⟨u, hu, ht⟩ := runInputs_cons hrun
    have hparams : u.params = s.params := (step_params hu).trans (withInput_params s i)
    cases he : i.edge with
    | hclk =>
      rw [hclkInputs_cons_hclk he, List.length_cons, Nat.add_comm _ 1, ← Nat.add_assoc] at hlen ⊢
      have hn : n < s.params.strobeCycles + 2 := by omega
      have hbusy : s.tx.txState ≠ .idle := by
        rw [hs, ne_eq, transferAt_idle_iff hx hn.le]
        exact hn.ne
      have htx : u.tx = transferAt s.params.strobeCycles x (n + 1) :=
        (step_tx_busy (s := s.withInput i) he hbusy hu).trans (txEdge_transferAt (s := s.withInput i) hx hp hs hn)
      rw [← hparams] at hp htx hlen ⊢
      exact ih hp htx his hlen ht
    | tclk =>
      have htx : u.tx = s.tx := step_tx_tclk (s := s.withInput i) he hu
      rw [hclkInputs_cons_of_ne (by simp [he])] at hlen ⊢
      rw [← htx] at hs
      rw [← hparams] at hp hs hlen ⊢
      exact ih hp hs his hlen ht
    | reset => exact absurd he hi

end

/-- Settles O50: the run starts at place 0 of a transfer. -/
theorem strobeHasExactWidth : Obligations.StrobeHasExactWidth := by
  intro is s t hp hsetup hstrobe hreset hlen hrun
  have htx := tx_of_run hsetup hp transferAt_zero.symm hreset (by rwa [Nat.zero_add]) hrun
  rw [Nat.zero_add] at htx
  rw [htx]
  exact ⟨transferAt_txData hlen, transferAt_strobe hstrobe hlen, transferAt_idle_iff hsetup hlen⟩

end Sys2Proof.Machine
end

section
/-! PROOFS. Family 45_gpio.md: what the writes of LED, PULSE and PINCFG do, the two pulse generators at every kind of
step, and the width of a pulse. -/

namespace Sys2Proof.Machine

/-! ### The two generators of the GPIO

The screen-clear and the system-reset generator obey one rule (45_gpio.md R284, R285), so what follows speaks of
either. -/

inductive PulseGenerator where
  | clr
  | rst

/-- A generator's (`act`, `cnt`). -/
def GpioPart.generator (g : GpioPart) : PulseGenerator → Bool × BitVec 16
  | .clr => (g.clrAct, g.clrCnt)
  | .rst => (g.rstAct, g.rstCnt)

/-- The start bit that a transaction has for a generator (R284). -/
def startBit (k : PulseGenerator) : Option Instr → Bool
  | some (.wrPulse d) => match k with
    | .clr => d.getLsbD 0
    | .rst => d.getLsbD 1
  | _ => false

theorem startBit_of_not_pulse {o : Option Instr} (h : ∀ d, o ≠ some (.wrPulse d)) (k : PulseGenerator) :
    startBit k o = false := by
  unfold startBit
  split
  · next d => exact absurd rfl (h d)
  · rfl

/-! ### One generator at an hclk edge (R284, R285) -/

section
variable {p : Params} {start act : Bool} {cnt : BitVec 16}

@[simp] theorem pulseEdge_off : pulseEdge false cnt = (false, cnt) := rfl

@[simp] theorem pulseEdge_last : pulseEdge true 0#16 = (false, 0#16) := rfl

theorem pulseEdge_counting (h : cnt ≠ 0#16) : pulseEdge true cnt = (true, cnt - 1#16) := by
  simp [pulseEdge, h]

@[simp] theorem pulseStart_no_start : pulseStart p false act cnt = pulseEdge act cnt := rfl

/-- A running generator ignores its start bit (R284). -/
@[simp] theorem pulseStart_running : pulseStart p start true cnt = pulseEdge true cnt := by
  simp [pulseStart]

@[simp] theorem pulseStart_idle_started :
    pulseStart p true false cnt = (true, BitVec.ofNat 16 (p.pulseCycles - 1)) := rfl

/-- A start bit starts its generator exactly if that one is idle; otherwise the edge is as with no start. -/
theorem pulseStart_spec (p : Params) (start act : Bool) (cnt : BitVec 16) :
    if start = true ∧ act = false then
      (pulseStart p start act cnt).1 = true ∧ (pulseStart p start act cnt).2 = BitVec.ofNat 16 (p.pulseCycles - 1)
    else
      (pulseStart p start act cnt).1 = (pulseEdge act cnt).1 ∧
      (pulseStart p start act cnt).2 = (pulseEdge act cnt).2 := by
  cases start with
  | false => simp
  | true => cases act <;> simp

end

/-! ### The GPIO at each kind of step -/

theorem generator_gpioAt (o : Option Instr) (s : State) (k : PulseGenerator) :
    (gpioAt o s).generator k =
      pulseStart s.params (startBit k o) (s.gpio.generator k).1 (s.gpio.generator k).2 := by
  unfold gpioAt
  split
  · cases k <;> rfl
  · cases k <;> rfl
  · cases k <;> rfl
  · next _ hpulse _ =>
    rw [startBit_of_not_pulse hpulse]
    cases k <;> rfl

theorem gpioAt_caps {o : Option Instr} (h : ∀ d, o ≠ some (.wrLed d)) (s : State) :
    (gpioAt o s).caps = s.gpio.caps := by
  unfold gpioAt
  split
  · next d => exact absurd rfl (h d)
  · rfl
  · rfl
  · rfl

section
variable {s t : State} {k : PulseGenerator}

theorem step_gpio_hclk (he : s.input.edge = .hclk) (h : step s = .next t) :
    t.gpio = gpioAt (transactionOf s.input) s := by
  rw [step_hclk he h, nextInput_gpio]
  rfl

theorem step_gpio_tclk (he : s.input.edge = .tclk) (h : step s = .next t) : t.gpio = s.gpio := by
  rw [step_tclk he h, nextInput_gpio, tclkEdge_gpio]

theorem step_generator_hclk (he : s.input.edge = .hclk) (h : step s = .next t) (k : PulseGenerator) :
    t.gpio.generator k = pulseStart s.params (startBit k (transactionOf s.input))
      (s.gpio.generator k).1 (s.gpio.generator k).2 := by
  rw [step_gpio_hclk he h, generator_gpioAt]

/-- A running generator counts down, whatever the transaction (R285). -/
theorem step_generator_running (he : s.input.edge = .hclk) (h : step s = .next t)
    (hact : (s.gpio.generator k).1 = true) :
    t.gpio.generator k = pulseEdge true (s.gpio.generator k).2 := by
  rw [step_generator_hclk he h, hact, pulseStart_running]

/-- An idle generator stays as it is but for a write of PULSE (R284). -/
theorem step_generator_idle (he : s.input.edge = .hclk) (h : step s = .next t)
    (hno : ∀ d, transactionOf s.input ≠ some (.wrPulse d)) (hact : (s.gpio.generator k).1 = false) :
    t.gpio.generator k = (false, (s.gpio.generator k).2) := by
  rw [step_generator_hclk he h, startBit_of_not_pulse hno, pulseStart_no_start, hact, pulseEdge_off]

theorem step_generator_countdown (he : s.input.edge = .hclk) (h : step s = .next t)
    (hact : (s.gpio.generator k).1 = true) :
    ((s.gpio.generator k).2 = 0#16 → t.gpio.generator k = (false, 0#16)) ∧
    ((s.gpio.generator k).2 ≠ 0#16 → t.gpio.generator k = (true, (s.gpio.generator k).2 - 1#16)) := by
  rw [step_generator_running he h hact]
  refine ⟨fun hc => ?last, fun hc => ?counting⟩
  case last => rw [hc, pulseEdge_last]
  case counting => exact pulseEdge_counting hc

end

/-! ### The writes and the frame of the GPIO (R282, R284, R285, R288) -/

theorem exec_wrLed (d : Byte) (s : State) :
    exec (.wrLed d) s = .next { hclkEdge s with gpio := { gpioEdge s with caps := d.getLsbD 0 } } := rfl

theorem exec_wrPulse (d : Byte) (s : State) :
    exec (.wrPulse d) s = .next { hclkEdge s with gpio := gpioPulse (d.getLsbD 0) (d.getLsbD 1) s } := rfl

theorem exec_wrPincfg (d : Byte) (s : State) :
    exec (.wrPincfg d) s = .next { hclkEdge s with gpio := { gpioEdge s with pincfg := lowNibble d } } := rfl

/-- Settles O22: each write sets its own element over the edge's GPIO. -/
theorem ledAndPincfgWritesComplete : Obligations.LedAndPincfgWritesComplete :=
  fun d s => ⟨exec_wrLed d s, exec_wrPincfg d s⟩

/-- Settles O23: either generator by `pulseStart_spec`. -/
theorem pulseWriteStartsIdleGenerators : Obligations.PulseWriteStartsIdleGenerators :=
  fun d s => ⟨_, exec_wrPulse d s, pulseStart_spec s.params (d.getLsbD 0) s.gpio.clrAct s.gpio.clrCnt,
    pulseStart_spec s.params (d.getLsbD 1) s.gpio.rstAct s.gpio.rstCnt, rfl, rfl, rfl⟩

/-- Settles O35: the countdown of either generator. -/
theorem runningPulsesCountDown : Obligations.RunningPulsesCountDown := by
  intro s t he hstep
  have hcount (k : PulseGenerator) := step_generator_countdown (k := k) he hstep
  simp only [Prod.ext_iff] at hcount
  exact ⟨hcount .clr, hcount .rst⟩

/-- Settles O36: LED, the enables and an idle generator each have one write. -/
theorem ledEnablesAndIdlePulsesChangeOnlyByTheirWrites :
    Obligations.LedEnablesAndIdlePulsesChangeOnlyByTheirWrites := by
  intro s t he hstep
  refine ⟨fun hno => ?caps, fun hno => ?pincfg, fun hno => ?idle⟩
  case caps => rw [step_gpio_hclk he hstep, gpioAt_caps hno]
  case pincfg => rw [step_gpio_hclk he hstep, gpioAt_pincfg hno]
  case idle =>
    have hidle (k : PulseGenerator) := step_generator_idle (k := k) he hstep hno
    simp only [Prod.ext_iff] at hidle
    exact ⟨hidle .clr, hidle .rst⟩

/-! ### The course of a pulse (R286)

From its start on, a generator after `n` hclk edges is a closed form of `n`: every hclk edge moves one place along it,
and no transaction and no tclk edge changes the place. -/

/-- A generator `n` hclk edges after the start of a pulse of `w` edges. -/
def pulseAfter (w n : Nat) : Bool × BitVec 16 := (decide (n < w), BitVec.ofNat 16 (w - 1 - n))

section
variable {w n : Nat} {k : PulseGenerator}

theorem pulseAfter_active (h : n < w) : pulseAfter w n = (true, BitVec.ofNat 16 (w - 1 - n)) := by
  simp [pulseAfter, h]

/-- An edge moves a running pulse to its next place: the count is 0 at the last edge and stays there. -/
theorem pulseEdge_pulseAfter (hw : w ≤ 65535) (h : n < w) :
    pulseEdge true (pulseAfter w n).2 = pulseAfter w (n + 1) := by
  rw [pulseAfter_active h]
  obtain rfl | hlt := Nat.eq_or_lt_of_le (Nat.succ_le_of_lt h)
  · simp [pulseAfter]
  · have hne : BitVec.ofNat 16 (w - 1 - n) ≠ 0#16 := by bv_omega
    have hpred : BitVec.ofNat 16 (w - 1 - n) - 1#16 = BitVec.ofNat 16 (w - 1 - (n + 1)) := by bv_omega
    rw [pulseEdge_counting hne, hpred, pulseAfter_active hlt]

/-- Along a run that is no longer than the pulse, the place is the number of hclk edges. -/
theorem generator_of_run {is : List StepInput} {s t : State} (hw : w ≤ 65535)
    (hs : s.gpio.generator k = pulseAfter w n) (hreset : NoReset is)
    (hlen : n + (hclkInputs is).length ≤ w) (hrun : runInputs is s = .next t) :
    t.gpio.generator k = pulseAfter w (n + (hclkInputs is).length) := by
  induction is generalizing s n with
  | nil =>
    obtain rfl : s = t := by simpa [runInputs] using hrun
    exact hs
  | cons i is ih =>
    obtain ⟨hi, his⟩ := List.forall_mem_cons.1 hreset
    obtain ⟨u, hu, ht⟩ := runInputs_cons hrun
    cases he : i.edge with
    | hclk =>
      rw [hclkInputs_cons_hclk he, List.length_cons, Nat.add_comm _ 1, ← Nat.add_assoc] at hlen ⊢
      have hn : n < w := by omega
      have hact : (s.gpio.generator k).1 = true := by rw [hs, pulseAfter_active hn]
      have hnext : u.gpio.generator k = pulseAfter w (n + 1) := by
        rw [step_generator_running (s := s.withInput i) he hu hact, withInput_gpio, hs, pulseEdge_pulseAfter hw hn]
      exact ih hnext his hlen ht
    | tclk =>
      have hgpio : u.gpio = s.gpio := step_gpio_tclk (s := s.withInput i) he hu
      rw [hclkInputs_cons_of_ne (by simp [he])] at hlen ⊢
      exact ih (by rw [hgpio, hs]) his hlen ht
    | reset => exact absurd he hi

/-- A generator that has just been started is at place 0, so that it runs for its `w` edges. -/
theorem generator_active_of_started {is : List StepInput} {s t : State} (h0 : 0 < w) (hw : w ≤ 65535)
    (hreset : NoReset is) (hrun : runInputs is s = .next t) (hlen : (hclkInputs is).length ≤ w)
    (hact : (s.gpio.generator k).1 = true) (hcnt : (s.gpio.generator k).2 = BitVec.ofNat 16 (w - 1)) :
    (t.gpio.generator k).1 = decide ((hclkInputs is).length < w) := by
  have hs : s.gpio.generator k = pulseAfter w 0 := by
    rw [pulseAfter_active h0]
    exact Prod.ext hact hcnt
  rw [generator_of_run hw hs hreset (by rwa [Nat.zero_add]) hrun, Nat.zero_add, pulseAfter]

end

/-- Settles O51: either generator is at place 0 of its pulse when the run starts. -/
theorem pulseHasExactWidth : Obligations.PulseHasExactWidth := by
  intro is s t hp hreset hrun hlen
  obtain ⟨-, -, -, hstrobe, hpulse⟩ := hp.constraints
  obtain ⟨-, -, -, -, -, -, -, -, -, hmax⟩ := hp
  have hwidth (k : PulseGenerator) :=
    generator_active_of_started (k := k) (hstrobe.trans hpulse) hmax hreset hrun hlen
  exact ⟨hwidth .clr, hwidth .rst⟩

end Sys2Proof.Machine
end

section
/-! PROOFS. Family 70_reset_and_hazards.md: the reset step, and what the host reads and the pins show right after it. -/

namespace Sys2Proof

theorem Params.Legal.clkpsReset_le {p : Params} (h : p.Legal) : p.clkpsReset ≤ 8 := by
  obtain ⟨-, hclkps, -⟩ := h
  exact hclkps

/-- Among the reads, address 0 is RD_CLKPR's alone. -/
theorem Instr.addr_eq_zero_iff_of_read {i : Instr} (hread : i.isWrite = false) : i.addr = 0 ↔ i = .rdClkpr := by
  cases i <;> simp [Instr.isWrite, Instr.addr] at hread ⊢

namespace Machine

/-! ### The reset step (70_reset_and_hazards.md R350) -/

theorem step_of_legal_reset {s : State} (hp : s.params.Legal) (he : s.input.edge = .reset) :
    step s = .next (nextInput (resetStep s)) := by
  rw [step, if_pos hp, edgeStep, he, mapNext]

/-- The reset step takes every part to its reset value; the next inputs touch none of them. -/
theorem step_reset_parts {s t : State} (he : s.input.edge = .reset) (h : step s = .next t) :
    t.params = s.params ∧ t.clock = .reset s.params ∧ t.config = .reset ∧ t.tick = .reset ∧
    t.scan = .reset s.params ∧ t.tx = .reset ∧ t.gpio = .reset ∧ t.timer = .reset ∧ t.chg = .reset := by
  obtain rfl := step_reset he h
  simp

/-- Settles O39: the parts' reset values are the values of R350's table. -/
theorem resetStepSetsEveryElement : Obligations.ResetStepSetsEveryElement := fun _ hp he =>
  have hstep := step_of_legal_reset hp he
  ⟨_, hstep, step_reset_parts he hstep⟩

/-! ### What the host reads right after reset (R353) -/

section
variable {p : Params}

/-- CLKPS_RESET fits the four bits of CLKPS. -/
theorem clkpsReset_lt (hp : p.Legal) : p.clkpsReset < 2 ^ 4 := hp.clkpsReset_le.trans_lt (by decide)

theorem clkprByte_of_closed_unlocked {c : ClockPart} (hwin : c.clkWin = 0#3) (hlock : c.clkLock = false) :
    clkprByte c = c.clkps.setWidth 8 := by
  rw [BitVec.setWidth_eq_append (by decide)]
  simp [clkprByte, hwin, hlock]

theorem clkprByte_reset (hp : p.Legal) : clkprByte (.reset p) = BitVec.ofNat 8 p.clkpsReset := by
  rw [clkprByte_of_closed_unlocked rfl rfl]
  exact BitVec.setWidth_ofNat_of_le_of_lt (by decide) (clkpsReset_lt hp)

theorem configBytes_reset : tcfgBByte .reset = 0#8 ∧ tcfgImskByte .reset = 0#8 := by decide

theorem tickByte_reset : tickByte .reset = 0#8 := by decide

theorem gpioBytes_reset : ledByte .reset = 0#8 ∧ pulseByte .reset = 0#8 ∧ pincfgByte .reset = 0#8 := by decide

theorem rowScanByte_reset : rowScanByte (.reset p) = 0#8 := by
  have hsame : rowScanByte (.reset p) = rowScanByte (.reset .ref8) := rfl
  exact hsame.trans (by decide)

theorem statusByte_resetWith : statusByte (State.resetWith p) = 0#8 := by
  have hsame : statusByte (State.resetWith p) = statusByte State.reset := rfl
  exact hsame.trans (by decide)

/-- The parameters show through CLKPR alone: every other address reads 0 at the reset values. -/
theorem readValue_resetWith_of_ne_zero {a : RegAddr} (ha : a ≠ 0) : readValue a (State.resetWith p) = 0#8 := by
  obtain ⟨htcfgB, htcfgImsk⟩ := configBytes_reset
  obtain ⟨hled, hpulse, hpincfg⟩ := gpioBytes_reset
  unfold readValue
  split
  · next haddr => exact absurd (BitVec.eq_of_toNat_eq haddr) ha
  · rfl
  · rfl
  · exact htcfgB
  · exact htcfgImsk
  · exact tickByte_reset
  · exact statusByte_resetWith
  · exact rowScanByte_reset
  · rfl
  · rfl
  · exact hled
  · exact hpulse
  · exact hpincfg
  · rfl

end

/-- Settles O40: address 0 reads CLKPR, and every other register reads 0 at its reset value. -/
theorem resetReadValues : Obligations.ResetReadValues := by
  intro p i hp hread
  refine ⟨_, exec_eq_hclkWith i _, ?_⟩
  rw [exec_read_rdata hread (exec_eq_hclkWith i _)]
  split
  · next hi =>
    subst hi
    exact clkprByte_reset hp
  · next hi => exact readValue_resetWith_of_ne_zero fun ha => hi ((Instr.addr_eq_zero_iff_of_read hread).1 ha)

/-! ### The pins right after reset (R352) -/

theorem clkDivision_reset {p : Params} (hp : p.Legal) : clkDivision (ClockPart.reset p).clkps = 2 ^ p.clkpsReset := by
  rw [clkDivision, ClockPart.reset, BitVec.toNat_ofNat, Nat.mod_eq_of_lt (clkpsReset_lt hp)]

/-- Settles O41: every enable, the pull-up and the tick flag are 0 at reset, and no read is on the bus. -/
theorem outputsAfterReset : Obligations.OutputsAfterReset := by
  intro s t he hstep hrd
  obtain ⟨hp, -⟩ := step_next hstep
  obtain ⟨-, hclock, -, htick, -, -, hgpio, -⟩ := step_reset_parts he hstep
  rw [outputs, hgpio, htick, hclock, clkDivision_reset hp, busRdata_of_no_read (.inl hrd)]
  rfl

end Machine
end Sys2Proof
end
